-- ==== Sys2Proof/Word.lean ====
section
/-! DEFINITION. The widths of the machine's words (00_scope.md R7, R10). -/

namespace Sys2Proof

/-- `u8`: the data bus and the registers A, X, Y, S (R7). -/
abbrev Byte := BitVec 8

/-- `u16`: the program counter and a CPU address (R7). -/
abbrev Word := BitVec 16

/-- A PPU bus address: 14 bits (61_ppu.md R540). -/
abbrev PpuAddr := BitVec 14

/-- The PPU's `v` and `t` registers: 15 bits (61_ppu.md R504). -/
abbrev VramAddr := BitVec 15

/-- An index into the PPU's 64 colours (61_ppu.md R542, R568). -/
abbrev Colour := BitVec 6

end Sys2Proof
end

