-- ==== Sys2Proof/Machine/Bits.lean ====
section
/-! DEFINITION. Bit fields and byte order (00_scope.md R10, R11; 20_memory.md R93). -/

namespace Sys2Proof.Machine

/-- `w[15:8]`. -/
def hiByte (w : Word) : Byte := w.extractLsb' 8 8

/-- `w[7:0]`. -/
def loByte (w : Word) : Byte := w.extractLsb' 0 8

/-- `hi ++ lo` of two bytes (R11): little-endian values have `lo` at the lower address (20 R93). -/
def mkWord (hi lo : Byte) : Word := hi ++ lo

/-- `zext_16(v)` (R11). -/
def zext (v : Byte) : Word := v.setWidth 16

/-- `sext_16(v)` (R11). -/
def sext (v : Byte) : Word := v.signExtend 16

/-- One bit as a flag's value: `v[k]` (R11). -/
def bit {n : Nat} (v : BitVec n) (k : Nat) : Bool := v.getLsbD k

/-- A flag as a bit at position `k` of a byte. -/
def flagAt (b : Bool) (k : Nat) : Byte := if b then (1#8) <<< k else 0

/-- Two addresses in different 256-byte pages: `(a & $FF00) != (b & $FF00)` (30_encoding.md R146, R149, R150). -/
def pageCrossed (a b : Word) : Bool := hiByte a != hiByte b

/-- The 8 bits of a byte in reverse order (61_ppu.md R565, horizontal flip). -/
def reverse8 (b : Byte) : Byte :=
  (((b >>> 7) &&& 0x01#8) ||| ((b >>> 5) &&& 0x02#8) ||| ((b >>> 3) &&& 0x04#8) ||| ((b >>> 1) &&& 0x08#8)) |||
  (((b <<< 1) &&& 0x10#8) ||| ((b <<< 3) &&& 0x20#8) ||| ((b <<< 5) &&& 0x40#8) ||| ((b <<< 7) &&& 0x80#8))

/-- `old` with the bits of `mask` taken from `new`: a field write such as `t[4:0] <- …`. -/
def setBits {n : Nat} (mask old new : BitVec n) : BitVec n := (old &&& ~~~mask) ||| (new &&& mask)

end Sys2Proof.Machine
end

