-- ==== Sys2Proof/Syntax.lean ====
section
/-! DEFINITION. The instructions as syntax: one constructor per row of spec/opcode_table.json (30_encoding.md R161, R170),
its operand field with it (R131), and the addressing modes (R140 to R150). -/

namespace Sys2Proof

/-- The 13 addressing modes (30_encoding.md R140 to R150), under the spec's short names. -/
inductive Mode where
  | imp | acc | imm | zp | zpx | zpy | abs | absx | absy | ind | indx | indy | rel
  deriving DecidableEq, Repr

/-- The length in bytes that a mode alone fixes (R130). -/
def Mode.length : Mode → Nat
  | .imp | .acc => 1
  | .imm | .zp | .zpx | .zpy | .indx | .indy | .rel => 2
  | .abs | .absx | .absy | .ind => 3

/-- The modes that form an effective address in memory, with their operand field (R143 to R149). -/
inductive Addr where
  | zp (b : Byte) | zpx (b : Byte) | zpy (b : Byte)
  | abs (w : Word) | absx (w : Word) | absy (w : Word)
  | ind (w : Word) | indx (b : Byte) | indy (b : Byte)
  deriving DecidableEq, Repr

/-- Where an instruction that takes one byte takes it from: the accumulator (R141), the operand byte itself (R142) or
memory at an effective address. -/
inductive Source where
  | acc | imm (b : Byte) | mem (a : Addr)
  deriving DecidableEq, Repr

/-- An instruction's operand: none (R140), a branch displacement (R150), or a byte's source. -/
inductive Operand where
  | imp | rel (d : Byte) | src (s : Source)
  deriving DecidableEq, Repr

/-- The addressing mode of an effective-address operand. -/
def Addr.mode : Addr → Mode
  | .zp _ => .zp | .zpx _ => .zpx | .zpy _ => .zpy
  | .abs _ => .abs | .absx _ => .absx | .absy _ => .absy
  | .ind _ => .ind | .indx _ => .indx | .indy _ => .indy

/-- The addressing mode of an operand. -/
def Operand.mode : Operand → Mode
  | .imp => .imp
  | .rel _ => .rel
  | .src .acc => .acc
  | .src (.imm _) => .imm
  | .src (.mem a) => a.mode

/-- The operand field as an unsigned number (R131): 0 where the form has no field. -/
def Addr.fieldValue : Addr → Nat
  | .zp b | .zpx b | .zpy b | .indx b | .indy b => b.toNat
  | .abs w | .absx w | .absy w | .ind w => w.toNat

/-- The operand field as an unsigned number (R131): 0 where the form has no field. -/
def Operand.fieldValue : Operand → Nat
  | .imp => 0
  | .rel d => d.toNat
  | .src .acc => 0
  | .src (.imm b) => b.toNat
  | .src (.mem a) => a.fieldValue

/-- The 151 registered instructions (R161): mnemonic and mode in the name, the operand field as the argument. -/
inductive Instr where
  | ldaImm (b : Byte)
  | ldaZp (b : Byte)
  | ldaZpx (b : Byte)
  | ldaAbs (w : Word)
  | ldaAbsx (w : Word)
  | ldaAbsy (w : Word)
  | ldaIndx (b : Byte)
  | ldaIndy (b : Byte)
  | ldxImm (b : Byte)
  | ldxZp (b : Byte)
  | ldxZpy (b : Byte)
  | ldxAbs (w : Word)
  | ldxAbsy (w : Word)
  | ldyImm (b : Byte)
  | ldyZp (b : Byte)
  | ldyZpx (b : Byte)
  | ldyAbs (w : Word)
  | ldyAbsx (w : Word)
  | staZp (b : Byte)
  | staZpx (b : Byte)
  | staAbs (w : Word)
  | staAbsx (w : Word)
  | staAbsy (w : Word)
  | staIndx (b : Byte)
  | staIndy (b : Byte)
  | stxZp (b : Byte)
  | stxZpy (b : Byte)
  | stxAbs (w : Word)
  | styZp (b : Byte)
  | styZpx (b : Byte)
  | styAbs (w : Word)
  | tax
  | tay
  | txa
  | tya
  | tsx
  | txs
  | adcImm (b : Byte)
  | adcZp (b : Byte)
  | adcZpx (b : Byte)
  | adcAbs (w : Word)
  | adcAbsx (w : Word)
  | adcAbsy (w : Word)
  | adcIndx (b : Byte)
  | adcIndy (b : Byte)
  | sbcImm (b : Byte)
  | sbcZp (b : Byte)
  | sbcZpx (b : Byte)
  | sbcAbs (w : Word)
  | sbcAbsx (w : Word)
  | sbcAbsy (w : Word)
  | sbcIndx (b : Byte)
  | sbcIndy (b : Byte)
  | andImm (b : Byte)
  | andZp (b : Byte)
  | andZpx (b : Byte)
  | andAbs (w : Word)
  | andAbsx (w : Word)
  | andAbsy (w : Word)
  | andIndx (b : Byte)
  | andIndy (b : Byte)
  | oraImm (b : Byte)
  | oraZp (b : Byte)
  | oraZpx (b : Byte)
  | oraAbs (w : Word)
  | oraAbsx (w : Word)
  | oraAbsy (w : Word)
  | oraIndx (b : Byte)
  | oraIndy (b : Byte)
  | eorImm (b : Byte)
  | eorZp (b : Byte)
  | eorZpx (b : Byte)
  | eorAbs (w : Word)
  | eorAbsx (w : Word)
  | eorAbsy (w : Word)
  | eorIndx (b : Byte)
  | eorIndy (b : Byte)
  | cmpImm (b : Byte)
  | cmpZp (b : Byte)
  | cmpZpx (b : Byte)
  | cmpAbs (w : Word)
  | cmpAbsx (w : Word)
  | cmpAbsy (w : Word)
  | cmpIndx (b : Byte)
  | cmpIndy (b : Byte)
  | cpxImm (b : Byte)
  | cpxZp (b : Byte)
  | cpxAbs (w : Word)
  | cpyImm (b : Byte)
  | cpyZp (b : Byte)
  | cpyAbs (w : Word)
  | bitZp (b : Byte)
  | bitAbs (w : Word)
  | incZp (b : Byte)
  | incZpx (b : Byte)
  | incAbs (w : Word)
  | incAbsx (w : Word)
  | decZp (b : Byte)
  | decZpx (b : Byte)
  | decAbs (w : Word)
  | decAbsx (w : Word)
  | inx
  | iny
  | dex
  | dey
  | aslAcc
  | aslZp (b : Byte)
  | aslZpx (b : Byte)
  | aslAbs (w : Word)
  | aslAbsx (w : Word)
  | lsrAcc
  | lsrZp (b : Byte)
  | lsrZpx (b : Byte)
  | lsrAbs (w : Word)
  | lsrAbsx (w : Word)
  | rolAcc
  | rolZp (b : Byte)
  | rolZpx (b : Byte)
  | rolAbs (w : Word)
  | rolAbsx (w : Word)
  | rorAcc
  | rorZp (b : Byte)
  | rorZpx (b : Byte)
  | rorAbs (w : Word)
  | rorAbsx (w : Word)
  | pha
  | php
  | pla
  | plp
  | jmpAbs (w : Word)
  | jmpInd (w : Word)
  | jsr (w : Word)
  | rts
  | bcc (d : Byte)
  | bcs (d : Byte)
  | beq (d : Byte)
  | bne (d : Byte)
  | bmi (d : Byte)
  | bpl (d : Byte)
  | bvc (d : Byte)
  | bvs (d : Byte)
  | clc
  | sec
  | cli
  | sei
  | cld
  | sed
  | clv
  | nop
  | brk
  | rti
  deriving DecidableEq, Repr

/-- The addressing mode and operand field each constructor stands for (R161, R170). -/
def Instr.operand : Instr → Operand
  | .ldaImm b => .src (.imm b)
  | .ldaZp b => .src (.mem (.zp b))
  | .ldaZpx b => .src (.mem (.zpx b))
  | .ldaAbs w => .src (.mem (.abs w))
  | .ldaAbsx w => .src (.mem (.absx w))
  | .ldaAbsy w => .src (.mem (.absy w))
  | .ldaIndx b => .src (.mem (.indx b))
  | .ldaIndy b => .src (.mem (.indy b))
  | .ldxImm b => .src (.imm b)
  | .ldxZp b => .src (.mem (.zp b))
  | .ldxZpy b => .src (.mem (.zpy b))
  | .ldxAbs w => .src (.mem (.abs w))
  | .ldxAbsy w => .src (.mem (.absy w))
  | .ldyImm b => .src (.imm b)
  | .ldyZp b => .src (.mem (.zp b))
  | .ldyZpx b => .src (.mem (.zpx b))
  | .ldyAbs w => .src (.mem (.abs w))
  | .ldyAbsx w => .src (.mem (.absx w))
  | .staZp b => .src (.mem (.zp b))
  | .staZpx b => .src (.mem (.zpx b))
  | .staAbs w => .src (.mem (.abs w))
  | .staAbsx w => .src (.mem (.absx w))
  | .staAbsy w => .src (.mem (.absy w))
  | .staIndx b => .src (.mem (.indx b))
  | .staIndy b => .src (.mem (.indy b))
  | .stxZp b => .src (.mem (.zp b))
  | .stxZpy b => .src (.mem (.zpy b))
  | .stxAbs w => .src (.mem (.abs w))
  | .styZp b => .src (.mem (.zp b))
  | .styZpx b => .src (.mem (.zpx b))
  | .styAbs w => .src (.mem (.abs w))
  | .tax => .imp
  | .tay => .imp
  | .txa => .imp
  | .tya => .imp
  | .tsx => .imp
  | .txs => .imp
  | .adcImm b => .src (.imm b)
  | .adcZp b => .src (.mem (.zp b))
  | .adcZpx b => .src (.mem (.zpx b))
  | .adcAbs w => .src (.mem (.abs w))
  | .adcAbsx w => .src (.mem (.absx w))
  | .adcAbsy w => .src (.mem (.absy w))
  | .adcIndx b => .src (.mem (.indx b))
  | .adcIndy b => .src (.mem (.indy b))
  | .sbcImm b => .src (.imm b)
  | .sbcZp b => .src (.mem (.zp b))
  | .sbcZpx b => .src (.mem (.zpx b))
  | .sbcAbs w => .src (.mem (.abs w))
  | .sbcAbsx w => .src (.mem (.absx w))
  | .sbcAbsy w => .src (.mem (.absy w))
  | .sbcIndx b => .src (.mem (.indx b))
  | .sbcIndy b => .src (.mem (.indy b))
  | .andImm b => .src (.imm b)
  | .andZp b => .src (.mem (.zp b))
  | .andZpx b => .src (.mem (.zpx b))
  | .andAbs w => .src (.mem (.abs w))
  | .andAbsx w => .src (.mem (.absx w))
  | .andAbsy w => .src (.mem (.absy w))
  | .andIndx b => .src (.mem (.indx b))
  | .andIndy b => .src (.mem (.indy b))
  | .oraImm b => .src (.imm b)
  | .oraZp b => .src (.mem (.zp b))
  | .oraZpx b => .src (.mem (.zpx b))
  | .oraAbs w => .src (.mem (.abs w))
  | .oraAbsx w => .src (.mem (.absx w))
  | .oraAbsy w => .src (.mem (.absy w))
  | .oraIndx b => .src (.mem (.indx b))
  | .oraIndy b => .src (.mem (.indy b))
  | .eorImm b => .src (.imm b)
  | .eorZp b => .src (.mem (.zp b))
  | .eorZpx b => .src (.mem (.zpx b))
  | .eorAbs w => .src (.mem (.abs w))
  | .eorAbsx w => .src (.mem (.absx w))
  | .eorAbsy w => .src (.mem (.absy w))
  | .eorIndx b => .src (.mem (.indx b))
  | .eorIndy b => .src (.mem (.indy b))
  | .cmpImm b => .src (.imm b)
  | .cmpZp b => .src (.mem (.zp b))
  | .cmpZpx b => .src (.mem (.zpx b))
  | .cmpAbs w => .src (.mem (.abs w))
  | .cmpAbsx w => .src (.mem (.absx w))
  | .cmpAbsy w => .src (.mem (.absy w))
  | .cmpIndx b => .src (.mem (.indx b))
  | .cmpIndy b => .src (.mem (.indy b))
  | .cpxImm b => .src (.imm b)
  | .cpxZp b => .src (.mem (.zp b))
  | .cpxAbs w => .src (.mem (.abs w))
  | .cpyImm b => .src (.imm b)
  | .cpyZp b => .src (.mem (.zp b))
  | .cpyAbs w => .src (.mem (.abs w))
  | .bitZp b => .src (.mem (.zp b))
  | .bitAbs w => .src (.mem (.abs w))
  | .incZp b => .src (.mem (.zp b))
  | .incZpx b => .src (.mem (.zpx b))
  | .incAbs w => .src (.mem (.abs w))
  | .incAbsx w => .src (.mem (.absx w))
  | .decZp b => .src (.mem (.zp b))
  | .decZpx b => .src (.mem (.zpx b))
  | .decAbs w => .src (.mem (.abs w))
  | .decAbsx w => .src (.mem (.absx w))
  | .inx => .imp
  | .iny => .imp
  | .dex => .imp
  | .dey => .imp
  | .aslAcc => .src .acc
  | .aslZp b => .src (.mem (.zp b))
  | .aslZpx b => .src (.mem (.zpx b))
  | .aslAbs w => .src (.mem (.abs w))
  | .aslAbsx w => .src (.mem (.absx w))
  | .lsrAcc => .src .acc
  | .lsrZp b => .src (.mem (.zp b))
  | .lsrZpx b => .src (.mem (.zpx b))
  | .lsrAbs w => .src (.mem (.abs w))
  | .lsrAbsx w => .src (.mem (.absx w))
  | .rolAcc => .src .acc
  | .rolZp b => .src (.mem (.zp b))
  | .rolZpx b => .src (.mem (.zpx b))
  | .rolAbs w => .src (.mem (.abs w))
  | .rolAbsx w => .src (.mem (.absx w))
  | .rorAcc => .src .acc
  | .rorZp b => .src (.mem (.zp b))
  | .rorZpx b => .src (.mem (.zpx b))
  | .rorAbs w => .src (.mem (.abs w))
  | .rorAbsx w => .src (.mem (.absx w))
  | .pha => .imp
  | .php => .imp
  | .pla => .imp
  | .plp => .imp
  | .jmpAbs w => .src (.mem (.abs w))
  | .jmpInd w => .src (.mem (.ind w))
  | .jsr w => .src (.mem (.abs w))
  | .rts => .imp
  | .bcc d => .rel d
  | .bcs d => .rel d
  | .beq d => .rel d
  | .bne d => .rel d
  | .bmi d => .rel d
  | .bpl d => .rel d
  | .bvc d => .rel d
  | .bvs d => .rel d
  | .clc => .imp
  | .sec => .imp
  | .cli => .imp
  | .sei => .imp
  | .cld => .imp
  | .sed => .imp
  | .clv => .imp
  | .nop => .imp
  | .brk => .imp
  | .rti => .imp

/-- The instruction's length in bytes (R130): its mode's. -/
def Instr.length (i : Instr) : Nat := i.operand.mode.length

end Sys2Proof
end

