-- ==== Sys2Proof/WellFormed.lean ====
section
/-! DEFINITION. What is well formed: an instruction's operand field (30_encoding.md R130, R131) and a cartridge image
(62_mappers_cartridge.md R601, R602). -/

namespace Sys2Proof

/-- An operand field fits an instruction of `length` bytes: its value fits the `length - 1` operand bytes (R131). -/
def operandFits (length value : Nat) : Bool := value < 2 ^ (8 * (length - 1))

/-- An instruction is well formed: its operand field fits the bytes its mode gives it. The operand types are exactly as
wide as the fields, so that every term is (Laws/PerInstr.lean). -/
abbrev Instr.WellFormed (i : Instr) : Prop := operandFits i.length i.operand.fieldValue = true

/-- Byte `k` of a cartridge image; 0 past its end. -/
def imageByte (img : List Byte) (k : Nat) : Byte := img.getD k 0

/-- Bytes 0 to 3 are the magic "NES", $1A (R601). -/
def imageMagicOk (img : List Byte) : Bool := img.take 4 == [0x4E, 0x45, 0x53, 0x1A]

/-- Bits 3..2 of byte 7, the header format, are %00 (R601). -/
def imageFormatOk (img : List Byte) : Bool := (imageByte img 7).extractLsb' 2 2 == 0

/-- `prgPages`, byte 4, is not 0 (R601). -/
def imagePagesOk (img : List Byte) : Bool := imageByte img 4 != 0

/-- Bit 2 of byte 6: a 512-byte trainer follows the header (R601). -/
def imageHasTrainer (img : List Byte) : Bool := (imageByte img 6).getLsbD 2

/-- The sizes the header declares: header, trainer, PRG pages of 16 KiB and CHR pages of 8 KiB (R600, R601). -/
def imageDeclaredSize (img : List Byte) : Nat :=
  16 + (if imageHasTrainer img then 512 else 0) + (imageByte img 4).toNat * 16384 + (imageByte img 5).toNat * 8192

/-- The image is not shorter than the sizes it declares (R601). -/
def imageSizeOk (img : List Byte) : Bool := imageDeclaredSize img ≤ img.length

/-- An image that loads without `LoadMalformedRom` (R601). -/
def imageWellFormed (img : List Byte) : Bool :=
  imageMagicOk img && imageFormatOk img && imagePagesOk img && imageSizeOk img

/-- The mapper number, the high nibbles of bytes 7 and 6 (R601). -/
def imageMapperNumber (img : List Byte) : Byte := (imageByte img 7).extractLsb' 4 4 ++ (imageByte img 6).extractLsb' 4 4

/-- The mapper numbers of the three variants (R602); any other is refused at load. -/
def mapperSupported (n : Byte) : Bool := n == 0 || n == 1 || n == 4

end Sys2Proof
end

