-- ==== Sys2Proof/Decode.lean ====
section
/-! DEFINITION. The opcode map (30_encoding.md R160, R161), the decoder over bytes, and after it the encoder (R131, R170). -/

namespace Sys2Proof

open Sys2Proof.Machine (mkWord hiByte loByte)

/-- A registered opcode's format (R131): F1 has no operand byte, F2 one, F3 a little-endian word. -/
inductive Form where
  | f1 (i : Instr)
  | f2 (k : Byte → Instr)
  | f3 (k : Word → Instr)

/-- Row 0 of the map of R161: opcodes $00 to $0F. -/
def mapRow0 : List (Option Form) :=
  [some (.f1 .brk), some (.f2 .oraIndx), none, none, none, some (.f2 .oraZp), some (.f2 .aslZp), none,
   some (.f1 .php), some (.f2 .oraImm), some (.f1 .aslAcc), none, none, some (.f3 .oraAbs), some (.f3 .aslAbs), none]

/-- Row 1 of the map of R161: opcodes $10 to $1F. -/
def mapRow1 : List (Option Form) :=
  [some (.f2 .bpl), some (.f2 .oraIndy), none, none, none, some (.f2 .oraZpx), some (.f2 .aslZpx), none,
   some (.f1 .clc), some (.f3 .oraAbsy), none, none, none, some (.f3 .oraAbsx), some (.f3 .aslAbsx), none]

/-- Row 2 of the map of R161: opcodes $20 to $2F. -/
def mapRow2 : List (Option Form) :=
  [some (.f3 .jsr), some (.f2 .andIndx), none, none, some (.f2 .bitZp), some (.f2 .andZp), some (.f2 .rolZp), none,
   some (.f1 .plp), some (.f2 .andImm), some (.f1 .rolAcc), none, some (.f3 .bitAbs), some (.f3 .andAbs), some (.f3 .rolAbs), none]

/-- Row 3 of the map of R161: opcodes $30 to $3F. -/
def mapRow3 : List (Option Form) :=
  [some (.f2 .bmi), some (.f2 .andIndy), none, none, none, some (.f2 .andZpx), some (.f2 .rolZpx), none,
   some (.f1 .sec), some (.f3 .andAbsy), none, none, none, some (.f3 .andAbsx), some (.f3 .rolAbsx), none]

/-- Row 4 of the map of R161: opcodes $40 to $4F. -/
def mapRow4 : List (Option Form) :=
  [some (.f1 .rti), some (.f2 .eorIndx), none, none, none, some (.f2 .eorZp), some (.f2 .lsrZp), none,
   some (.f1 .pha), some (.f2 .eorImm), some (.f1 .lsrAcc), none, some (.f3 .jmpAbs), some (.f3 .eorAbs), some (.f3 .lsrAbs), none]

/-- Row 5 of the map of R161: opcodes $50 to $5F. -/
def mapRow5 : List (Option Form) :=
  [some (.f2 .bvc), some (.f2 .eorIndy), none, none, none, some (.f2 .eorZpx), some (.f2 .lsrZpx), none,
   some (.f1 .cli), some (.f3 .eorAbsy), none, none, none, some (.f3 .eorAbsx), some (.f3 .lsrAbsx), none]

/-- Row 6 of the map of R161: opcodes $60 to $6F. -/
def mapRow6 : List (Option Form) :=
  [some (.f1 .rts), some (.f2 .adcIndx), none, none, none, some (.f2 .adcZp), some (.f2 .rorZp), none,
   some (.f1 .pla), some (.f2 .adcImm), some (.f1 .rorAcc), none, some (.f3 .jmpInd), some (.f3 .adcAbs), some (.f3 .rorAbs), none]

/-- Row 7 of the map of R161: opcodes $70 to $7F. -/
def mapRow7 : List (Option Form) :=
  [some (.f2 .bvs), some (.f2 .adcIndy), none, none, none, some (.f2 .adcZpx), some (.f2 .rorZpx), none,
   some (.f1 .sei), some (.f3 .adcAbsy), none, none, none, some (.f3 .adcAbsx), some (.f3 .rorAbsx), none]

/-- Row 8 of the map of R161: opcodes $80 to $8F. -/
def mapRow8 : List (Option Form) :=
  [none, some (.f2 .staIndx), none, none, some (.f2 .styZp), some (.f2 .staZp), some (.f2 .stxZp), none,
   some (.f1 .dey), none, some (.f1 .txa), none, some (.f3 .styAbs), some (.f3 .staAbs), some (.f3 .stxAbs), none]

/-- Row 9 of the map of R161: opcodes $90 to $9F. -/
def mapRow9 : List (Option Form) :=
  [some (.f2 .bcc), some (.f2 .staIndy), none, none, some (.f2 .styZpx), some (.f2 .staZpx), some (.f2 .stxZpy), none,
   some (.f1 .tya), some (.f3 .staAbsy), some (.f1 .txs), none, none, some (.f3 .staAbsx), none, none]

/-- Row A of the map of R161: opcodes $A0 to $AF. -/
def mapRowA : List (Option Form) :=
  [some (.f2 .ldyImm), some (.f2 .ldaIndx), some (.f2 .ldxImm), none, some (.f2 .ldyZp), some (.f2 .ldaZp), some (.f2 .ldxZp), none,
   some (.f1 .tay), some (.f2 .ldaImm), some (.f1 .tax), none, some (.f3 .ldyAbs), some (.f3 .ldaAbs), some (.f3 .ldxAbs), none]

/-- Row B of the map of R161: opcodes $B0 to $BF. -/
def mapRowB : List (Option Form) :=
  [some (.f2 .bcs), some (.f2 .ldaIndy), none, none, some (.f2 .ldyZpx), some (.f2 .ldaZpx), some (.f2 .ldxZpy), none,
   some (.f1 .clv), some (.f3 .ldaAbsy), some (.f1 .tsx), none, some (.f3 .ldyAbsx), some (.f3 .ldaAbsx), some (.f3 .ldxAbsy), none]

/-- Row C of the map of R161: opcodes $C0 to $CF. -/
def mapRowC : List (Option Form) :=
  [some (.f2 .cpyImm), some (.f2 .cmpIndx), none, none, some (.f2 .cpyZp), some (.f2 .cmpZp), some (.f2 .decZp), none,
   some (.f1 .iny), some (.f2 .cmpImm), some (.f1 .dex), none, some (.f3 .cpyAbs), some (.f3 .cmpAbs), some (.f3 .decAbs), none]

/-- Row D of the map of R161: opcodes $D0 to $DF. -/
def mapRowD : List (Option Form) :=
  [some (.f2 .bne), some (.f2 .cmpIndy), none, none, none, some (.f2 .cmpZpx), some (.f2 .decZpx), none,
   some (.f1 .cld), some (.f3 .cmpAbsy), none, none, none, some (.f3 .cmpAbsx), some (.f3 .decAbsx), none]

/-- Row E of the map of R161: opcodes $E0 to $EF. -/
def mapRowE : List (Option Form) :=
  [some (.f2 .cpxImm), some (.f2 .sbcIndx), none, none, some (.f2 .cpxZp), some (.f2 .sbcZp), some (.f2 .incZp), none,
   some (.f1 .inx), some (.f2 .sbcImm), some (.f1 .nop), none, some (.f3 .cpxAbs), some (.f3 .sbcAbs), some (.f3 .incAbs), none]

/-- Row F of the map of R161: opcodes $F0 to $FF. -/
def mapRowF : List (Option Form) :=
  [some (.f2 .beq), some (.f2 .sbcIndy), none, none, none, some (.f2 .sbcZpx), some (.f2 .incZpx), none,
   some (.f1 .sed), some (.f3 .sbcAbsy), none, none, none, some (.f3 .sbcAbsx), some (.f3 .incAbsx), none]

/-- The 256-entry table of R160 as the 16 rows of R161. -/
def opcodeMap : List (List (Option Form)) :=
  [mapRow0, mapRow1, mapRow2, mapRow3, mapRow4, mapRow5, mapRow6, mapRow7] ++
  [mapRow8, mapRow9, mapRowA, mapRowB, mapRowC, mapRowD, mapRowE, mapRowF]

/-- The table's entry for an opcode byte: `none` is an unregistered opcode (R160, R162). -/
def formOf (op : Byte) : Option Form :=
  ((opcodeMap.getD (op.toNat / 16) []).getD (op.toNat % 16) none)

/-- Why bytes do not decode. -/
inductive DecodeError where
  /-- The opcode byte has no handler (R162). -/
  | unregistered (op : Byte)
  /-- The bytes end before the instruction does. -/
  | truncated
  deriving DecidableEq, Repr

/-- Decoding of a byte list (R130, R131): the instruction and the rest of the list, or the error by name. -/
def decode : List Byte → Except DecodeError (Instr × List Byte)
  | [] => .error .truncated
  | op :: rest =>
    match formOf op with
    | none => .error (.unregistered op)
    | some (.f1 i) => .ok (i, rest)
    | some (.f2 k) =>
      match rest with
      | b1 :: rest' => .ok (k b1, rest')
      | [] => .error .truncated
    | some (.f3 k) =>
      match rest with
      | b1 :: b2 :: rest' => .ok (k (mkWord b2 b1), rest')
      | _ => .error .truncated

/-- The opcode byte of each instruction (R161, R170). -/
def Instr.opcode : Instr → Byte
  | .ldaImm _ => 0xA9
  | .ldaZp _ => 0xA5
  | .ldaZpx _ => 0xB5
  | .ldaAbs _ => 0xAD
  | .ldaAbsx _ => 0xBD
  | .ldaAbsy _ => 0xB9
  | .ldaIndx _ => 0xA1
  | .ldaIndy _ => 0xB1
  | .ldxImm _ => 0xA2
  | .ldxZp _ => 0xA6
  | .ldxZpy _ => 0xB6
  | .ldxAbs _ => 0xAE
  | .ldxAbsy _ => 0xBE
  | .ldyImm _ => 0xA0
  | .ldyZp _ => 0xA4
  | .ldyZpx _ => 0xB4
  | .ldyAbs _ => 0xAC
  | .ldyAbsx _ => 0xBC
  | .staZp _ => 0x85
  | .staZpx _ => 0x95
  | .staAbs _ => 0x8D
  | .staAbsx _ => 0x9D
  | .staAbsy _ => 0x99
  | .staIndx _ => 0x81
  | .staIndy _ => 0x91
  | .stxZp _ => 0x86
  | .stxZpy _ => 0x96
  | .stxAbs _ => 0x8E
  | .styZp _ => 0x84
  | .styZpx _ => 0x94
  | .styAbs _ => 0x8C
  | .tax => 0xAA
  | .tay => 0xA8
  | .txa => 0x8A
  | .tya => 0x98
  | .tsx => 0xBA
  | .txs => 0x9A
  | .adcImm _ => 0x69
  | .adcZp _ => 0x65
  | .adcZpx _ => 0x75
  | .adcAbs _ => 0x6D
  | .adcAbsx _ => 0x7D
  | .adcAbsy _ => 0x79
  | .adcIndx _ => 0x61
  | .adcIndy _ => 0x71
  | .sbcImm _ => 0xE9
  | .sbcZp _ => 0xE5
  | .sbcZpx _ => 0xF5
  | .sbcAbs _ => 0xED
  | .sbcAbsx _ => 0xFD
  | .sbcAbsy _ => 0xF9
  | .sbcIndx _ => 0xE1
  | .sbcIndy _ => 0xF1
  | .andImm _ => 0x29
  | .andZp _ => 0x25
  | .andZpx _ => 0x35
  | .andAbs _ => 0x2D
  | .andAbsx _ => 0x3D
  | .andAbsy _ => 0x39
  | .andIndx _ => 0x21
  | .andIndy _ => 0x31
  | .oraImm _ => 0x09
  | .oraZp _ => 0x05
  | .oraZpx _ => 0x15
  | .oraAbs _ => 0x0D
  | .oraAbsx _ => 0x1D
  | .oraAbsy _ => 0x19
  | .oraIndx _ => 0x01
  | .oraIndy _ => 0x11
  | .eorImm _ => 0x49
  | .eorZp _ => 0x45
  | .eorZpx _ => 0x55
  | .eorAbs _ => 0x4D
  | .eorAbsx _ => 0x5D
  | .eorAbsy _ => 0x59
  | .eorIndx _ => 0x41
  | .eorIndy _ => 0x51
  | .cmpImm _ => 0xC9
  | .cmpZp _ => 0xC5
  | .cmpZpx _ => 0xD5
  | .cmpAbs _ => 0xCD
  | .cmpAbsx _ => 0xDD
  | .cmpAbsy _ => 0xD9
  | .cmpIndx _ => 0xC1
  | .cmpIndy _ => 0xD1
  | .cpxImm _ => 0xE0
  | .cpxZp _ => 0xE4
  | .cpxAbs _ => 0xEC
  | .cpyImm _ => 0xC0
  | .cpyZp _ => 0xC4
  | .cpyAbs _ => 0xCC
  | .bitZp _ => 0x24
  | .bitAbs _ => 0x2C
  | .incZp _ => 0xE6
  | .incZpx _ => 0xF6
  | .incAbs _ => 0xEE
  | .incAbsx _ => 0xFE
  | .decZp _ => 0xC6
  | .decZpx _ => 0xD6
  | .decAbs _ => 0xCE
  | .decAbsx _ => 0xDE
  | .inx => 0xE8
  | .iny => 0xC8
  | .dex => 0xCA
  | .dey => 0x88
  | .aslAcc => 0x0A
  | .aslZp _ => 0x06
  | .aslZpx _ => 0x16
  | .aslAbs _ => 0x0E
  | .aslAbsx _ => 0x1E
  | .lsrAcc => 0x4A
  | .lsrZp _ => 0x46
  | .lsrZpx _ => 0x56
  | .lsrAbs _ => 0x4E
  | .lsrAbsx _ => 0x5E
  | .rolAcc => 0x2A
  | .rolZp _ => 0x26
  | .rolZpx _ => 0x36
  | .rolAbs _ => 0x2E
  | .rolAbsx _ => 0x3E
  | .rorAcc => 0x6A
  | .rorZp _ => 0x66
  | .rorZpx _ => 0x76
  | .rorAbs _ => 0x6E
  | .rorAbsx _ => 0x7E
  | .pha => 0x48
  | .php => 0x08
  | .pla => 0x68
  | .plp => 0x28
  | .jmpAbs _ => 0x4C
  | .jmpInd _ => 0x6C
  | .jsr _ => 0x20
  | .rts => 0x60
  | .bcc _ => 0x90
  | .bcs _ => 0xB0
  | .beq _ => 0xF0
  | .bne _ => 0xD0
  | .bmi _ => 0x30
  | .bpl _ => 0x10
  | .bvc _ => 0x50
  | .bvs _ => 0x70
  | .clc => 0x18
  | .sec => 0x38
  | .cli => 0x58
  | .sei => 0x78
  | .cld => 0xD8
  | .sed => 0xF8
  | .clv => 0xB8
  | .nop => 0xEA
  | .brk => 0x00
  | .rti => 0x40

/-- The operand bytes of an effective-address operand (R131): a word low byte first. -/
def Addr.bytes : Addr → List Byte
  | .zp b | .zpx b | .zpy b | .indx b | .indy b => [b]
  | .abs w | .absx w | .absy w | .ind w => [loByte w, hiByte w]

/-- The operand bytes of an operand (R131). -/
def Operand.bytes : Operand → List Byte
  | .imp | .src .acc => []
  | .rel d => [d]
  | .src (.imm b) => [b]
  | .src (.mem a) => a.bytes

/-- The encoder: the opcode byte, then the operand bytes (R130, R131). -/
def encode (i : Instr) : List Byte := i.opcode :: i.operand.bytes

/-- The first three bytes of an instruction whose bits are `w`, numbered as spec/opcode_table.json numbers them: the first
byte is bits 7..0, the next bits 15..8, and every bit from `nbits` on is 0 (log 12). -/
def tableBytes (nbits w : Nat) : List Byte :=
  let u := w % 2 ^ nbits
  [BitVec.ofNat 8 u, BitVec.ofNat 8 (u / 256), BitVec.ofNat 8 (u / 65536)]

/-- The instruction the decoder reads from an instruction of the table whose bits are `w`. -/
def decodeTableWord (nbits w : Nat) : Option Instr :=
  match decode (tableBytes nbits w) with
  | .ok (i, _) => some i
  | .error _ => none

end Sys2Proof
end

