-- ==== Sys2Proof/Config.lean ====
section
/-! DEFINITION. What the spec leaves open as parameters of the hardware (92_eei_decisions.md section 1):
free values, opaque constants with no body, so that no proof can see what they are. -/

namespace Sys2Proof

/-- The byte memories of the machine, each with its own index space: internal RAM (20_memory.md R76), PRG-RAM and
CHR-RAM (62_mappers_cartridge.md R610), nametable VRAM, palette and primary OAM (61_ppu.md R500), and the
cartridge's PRG ROM and CHR ROM (62_mappers_cartridge.md R600). -/
inductive Region where
  | ram | prgRam | chrRam | vram | palette | oam | prgRom | chrRom
  deriving DecidableEq, Repr

/-- `InitMem` (92 D21, OPEN): the power-on contents of the RAMs. A free value (log 2). -/
opaque Config.initMem : Region → Nat → Byte

/-- `InitOpenBus` (92 D23, OPEN): the power-on value of the open-bus latch. A free value (log 3). -/
opaque Config.initOpenBus : Byte

/-- `NesPaletteRGB` (92 D52, OPEN): colour index to packed RGB. A free value (log 4). -/
opaque Config.nesPaletteRGB : Colour → BitVec 24

/-- The RGB of a frame's pixel that has not been drawn yet, "unspecified until the first publication"
(61_ppu.md R500). A free value (log 4). -/
opaque Config.initFrame : Nat → BitVec 24

end Sys2Proof
end

