-- ==== Sys2Proof/Machine/State.lean ====
section
/-! DEFINITION. The machine's state as plain data: processor (10_state.md R48), CPU bus (20_memory.md R95), PPU
(61_ppu.md R500), mapper (62_mappers_cartridge.md R610), launch parameters (00_scope.md R8), the host's requests
(60_exceptions.md R450), the reasons a step stops (60 R420), and the state after reset (70_reset_and_hazards.md R705). -/

namespace Sys2Proof.Machine

/-- A byte memory: cells (index, byte), indexes strictly rising, no cell equal to what an unlisted index reads as
(`Memory.wf`; what an unlisted index reads as is `unlisted`, Machine/Mem.lean). -/
abbrev Mem := List Host.Cell

/-- The record of an unregistered opcode: the byte and its address (10_state.md R43). -/
structure UnsupportedOp where
  op   : Byte
  addr : Word
  deriving DecidableEq, Repr

/-- The trace snapshot of the last executed instruction (R44). -/
structure Trace where
  addr     : Word
  opcode   : Byte
  operands : List Byte
  mode     : Mode
  ea       : Option Word
  deriving DecidableEq, Repr

/-- The processor (R48). -/
structure Cpu where
  /-- A (R30) -/
  a : Byte
  /-- X (R31) -/
  x : Byte
  /-- Y (R32) -/
  y : Byte
  /-- S, the stack pointer (R33) -/
  s : Byte
  /-- PC (R34) -/
  pc : Word
  /-- C, Carry (R35) -/
  c : Bool
  /-- Z, Zero (R35) -/
  z : Bool
  /-- I, Interrupt-disable (R35) -/
  i : Bool
  /-- D, Decimal (R35) -/
  d : Bool
  /-- V, Overflow (R35) -/
  v : Bool
  /-- N, Negative (R35) -/
  n : Bool
  /-- the sleep counter (R40) -/
  sleep : Nat
  /-- the NMI latch (R41) -/
  nmiPending : Bool
  /-- the IRQ latch (R42) -/
  irqPending : Bool
  /-- the unsupported-opcode record; `none` is clear (R43) -/
  unsupportedSeen : Option UnsupportedOp
  /-- the trace snapshot; `none` before the first instruction (R44) -/
  trace : Option Trace
  deriving DecidableEq, Repr

/-- An entry of `secondary`: a sprite's index in OAM and its four bytes (61_ppu.md R500, R506). -/
structure OamEntry where
  n    : Nat
  y    : Byte
  tile : Byte
  attr : Byte
  xpos : Byte
  deriving DecidableEq, Repr

/-- An active sprite descriptor (R507). -/
structure Sprite where
  id   : Nat
  xpos : Byte
  attr : Byte
  lo   : Byte
  hi   : Byte
  deriving DecidableEq, Repr

/-- A frame: the pixels drawn, (row-major index, colour index), indexes strictly falling; a pixel not listed has not
been drawn yet. Its RGB is `State.publishedPixel` (log 4). -/
abbrev Frame := List (Nat × Colour)

/-- The PPU (R500). -/
structure Ppu where
  ctrl : Byte
  mask : Byte
  vblank : Bool
  sprite0Hit : Bool
  spriteOverflow : Bool
  v : VramAddr
  t : VramAddr
  /-- fine X (R505) -/
  x : BitVec 3
  /-- the write toggle (R505) -/
  w : Bool
  oamAddr : Byte
  readBuffer : Byte
  ioLatch : Byte
  oam : Mem
  secondary : List OamEntry
  sprites : List Sprite
  bgPatLo : BitVec 16
  bgPatHi : BitVec 16
  bgAtLo : BitVec 16
  bgAtHi : BitVec 16
  ntLatch : Byte
  atLatch : BitVec 2
  patLoLatch : Byte
  patHiLatch : Byte
  vram : Mem
  palette : Mem
  scanline : Nat
  dot : Nat
  oddFrame : Bool
  backFrame : Frame
  publishedFrame : Frame
  deriving DecidableEq, Repr

/-- The registers of the shift-register variant (62_mappers_cartridge.md R630). -/
structure Mmc1 where
  shift   : BitVec 5
  count   : Nat
  control : BitVec 5
  chr0    : BitVec 5
  chr1    : BitVec 5
  prg     : BitVec 5
  deriving DecidableEq, Repr

/-- The registers of the scanline-IRQ variant (R640). -/
structure Mmc3 where
  bankSelect : Byte
  r0 : Byte
  r1 : Byte
  r2 : Byte
  r3 : Byte
  r4 : Byte
  r5 : Byte
  r6 : Byte
  r7 : Byte
  mirrorBit : Bool
  prgRamProtect : Byte
  irqLatch : Byte
  irqCounter : Byte
  irqReload : Bool
  irqEnabled : Bool
  deriving DecidableEq, Repr

/-- The mapper variant and its registers (R602, R610). -/
inductive MapperRegs where
  | nrom
  | mmc1 (m : Mmc1)
  | mmc3 (m : Mmc3)
  deriving DecidableEq, Repr

/-- The mapper's state (R610). -/
structure Mapper where
  regs   : MapperRegs
  prgRam : Mem
  chrRam : Mem
  deriving DecidableEq, Repr

/-- The parsed cartridge (R600). -/
structure Cartridge where
  prgPages      : Nat
  chrPages      : Nat
  mapperNumber  : Byte
  mirroringFlag : Bool
  hasPrgRam     : Bool
  hasTrainer    : Bool
  fourScreen    : Bool
  prgRom        : Mem
  chrRom        : Mem
  trainer       : List Byte
  expansion     : List Byte
  deriving DecidableEq, Repr

/-- The launch parameters (00_scope.md R8): no step changes them (log 1). -/
structure Launch where
  strictOpcodes : Bool
  entryOverride : Option Word
  cart          : Cartridge
  deriving DecidableEq, Repr

/-- What the host can ask for between system ticks (60_exceptions.md R450; 70_reset_and_hazards.md R700, R701). -/
inductive HostRequest where
  /-- the hard reset that is the power-on (70 R700, R705; log 9) -/
  | powerOn
  /-- a hard reset of the running machine, which keeps the mapper and the PPU's memories (62 R614, 70 R704; log 9) -/
  | hardReset
  /-- a soft reset (70 R701) -/
  | softReset
  deriving DecidableEq, Repr

/-- The cause of a fault that a step raised, with what R420 says it records (60_exceptions.md R420, codes 1 to 3). -/
inductive FaultCause where
  | invalidOpcode (op : Byte) (addr : Word)
  | badVector (vector : Word)
  | portWordRead (addr : Word)
  deriving DecidableEq, Repr

/-- The class 'fatal' of R420: all but the strict policy's step failure. -/
def FaultCause.fatal : FaultCause → Bool
  | .invalidOpcode _ _ => false
  | .badVector _ => true
  | .portWordRead _ => true

/-- The whole machine (10_state.md R48). -/
structure State where
  cpu : Cpu
  /-- internal RAM (20_memory.md R76) -/
  ram : Mem
  /-- the open-bus latch (R82) -/
  busLatch : Byte
  ppu : Ppu
  mapper : Mapper
  launch : Launch
  /-- a reset the host has asked for (60 R450; log 10) -/
  hostRequest : Option HostRequest
  /-- the host's shutdown flag (70 R722) -/
  shutdown : Bool
  /-- every fault of the run, newest first, kept for the rest of it (60 R408, R421; 92 D68; log 6) -/
  faults : List FaultCause
  /-- a fatal condition has stopped the clock, until a reset (70 R721; log 6) -/
  stopped : Bool
  deriving DecidableEq, Repr

/-- Why a step fails (60_exceptions.md R420). A fault raised in a step carries the state it leaves: accesses made earlier in
the step stay made (R421), and `step` has recorded the fault in it. A run goes on from that state as R721 says (log 6). -/
inductive Fault where
  /-- Code 1. Raised by `step` on an unregistered opcode under the strict policy (R408). Safe: the spec's own step failure,
  where the chip runs an undocumented instruction (92 D2). -/
  | invalidOpcode (op : Byte) (addr : Word) (after : State)
  /-- Code 2. Raised by every vector fetch that reads $FFFF: NMI, IRQ, BRK, reset (R410). Safe: the spec's own fatal
  condition, a fault the chip lacks (92 D17). -/
  | badVector (vector : Word) (after : State)
  /-- Code 3. Raised by a word read with a byte in $2000-$3FFF: an operand word or a vector (20_memory.md R91). Safe: the
  spec's own fatal condition (92 D34). -/
  | portWordRead (addr : Word) (after : State)
  /-- Code 4. Raised by `loadImage` on a mapper number other than 0, 1, 4 (62_mappers_cartridge.md R602). Safe: before any
  step. -/
  | loadUnsupportedMapper (n : Byte)
  /-- Code 5. Raised by `loadImage` on a malformed image (R601). Safe: before any step. -/
  | loadMalformedRom
  deriving DecidableEq, Repr

/-- Why an instruction has no meaning in the model. -/
inductive Refusal where
  /-- Raised by `exec` for an instruction that has no meaning yet; no arm does. Safe. -/
  | notModelled (mnemonic : String)
  deriving DecidableEq, Repr

/-- The outcome of a step or a meaning: 60_exceptions.md R400's `Ok`, and `Fail` or `Fatal` as a fault. -/
abbrev Outcome := Host.Outcome State Fault Refusal

/-- The processor after a hard reset whose reset sequence has set PC to `pc` (70_reset_and_hazards.md R700, R703). -/
def Cpu.afterReset (pc : Word) : Cpu where
  a := 0
  x := 0
  y := 0
  s := 0xFD
  pc := pc
  c := false
  z := false
  i := true
  d := false
  v := false
  n := false
  sleep := 6
  nmiPending := false
  irqPending := false
  unsupportedSeen := none
  trace := none

/-- The PPU at power-on: R704's zeros, its memories at `InitMem` (nothing listed) and no pixel drawn. -/
def Ppu.powerOn : Ppu where
  ctrl := 0
  mask := 0
  vblank := false
  sprite0Hit := false
  spriteOverflow := false
  v := 0
  t := 0
  x := 0
  w := false
  oamAddr := 0
  readBuffer := 0
  ioLatch := 0
  oam := []
  secondary := []
  sprites := []
  bgPatLo := 0
  bgPatHi := 0
  bgAtLo := 0
  bgAtHi := 0
  ntLatch := 0
  atLatch := 0
  patLoLatch := 0
  patHiLatch := 0
  vram := []
  palette := []
  scanline := 0
  dot := 0
  oddFrame := false
  backFrame := []
  publishedFrame := []

/-- The cartridge of 95_test_vectors.md's standard machine: NROM, one PRG page, one CHR page, vertical mirroring, reset
vector $8000 (`prgRom[$3FFC] = $00`, `prgRom[$3FFD] = $80`); every other ROM byte 0 (log 1, log 5). -/
def Cartridge.standard : Cartridge where
  prgPages := 1
  chrPages := 1
  mapperNumber := 0
  mirroringFlag := true
  hasPrgRam := false
  hasTrainer := false
  fourScreen := false
  prgRom := [(0x3FFD, 0x80)]
  chrRom := []
  trainer := []
  expansion := []

/-- The standard launch of 95_test_vectors.md: the lenient policy, no entry override (log 1). -/
def Launch.standard : Launch where
  strictOpcodes := false
  entryOverride := none
  cart := Cartridge.standard

/-- The machine right after a hard reset, for the standard launch (70_reset_and_hazards.md R705; log 1): every register
at R705's value, PC at the reset vector, the RAMs listing nothing. -/
def State.reset : State where
  cpu := Cpu.afterReset 0x8000
  ram := []
  busLatch := Config.initOpenBus
  ppu := Ppu.powerOn
  mapper := { regs := .nrom, prgRam := [], chrRam := [] }
  launch := Launch.standard
  hostRequest := none
  shutdown := false
  faults := []
  stopped := false

end Sys2Proof.Machine
end

