-- ==== Sys2Proof/Machine/Mem.lean ====
section
/-! DEFINITION. The byte memories: one canonical form, one reading of an unlisted cell, one read and one write, and each
memory's place in the state. -/

namespace Sys2Proof.Machine

/-- The byte listed for index `i`. -/
def memFind : Mem → Nat → Option Byte
  | [], _ => none
  | (j, b) :: m, i => if j = i then some b else memFind m i

/-- List byte `b` for index `i`, in place. -/
def memInsert : Mem → Nat → Byte → Mem
  | [], i, b => [(i, b)]
  | (j, c) :: m, i, b =>
    if i < j then (i, b) :: (j, c) :: m
    else if j = i then (i, b) :: m
    else (j, c) :: memInsert m i b

/-- Take every listing of index `i` out. -/
def memErase : Mem → Nat → Mem
  | [], _ => []
  | (j, c) :: m, i => if j = i then memErase m i else (j, c) :: memErase m i

/-- What is known of an unlisted cell: a ROM's is 0, so that a list holds the ROM's nonzero bytes (log 5); of a RAM's cell
nothing is known (log 2). -/
def unlisted : Region → Option Byte
  | .prgRom | .chrRom => some 0
  | .ram | .prgRam | .chrRam | .vram | .palette | .oam => none

/-- What an unlisted cell reads as: `unlisted` where it is known, else the open parameter `InitMem` (92 D21; log 2). -/
def unlistedRead (r : Region) (i : Nat) : Byte := (unlisted r).getD (Config.initMem r i)

/-- Read one cell. -/
def memRead (r : Region) (m : Mem) (i : Nat) : Byte := (memFind m i).getD (unlistedRead r i)

/-- Write one cell, keeping the canonical form: writing what an unlisted cell is known to hold takes the listing out. -/
def memWrite (r : Region) (m : Mem) (i : Nat) (b : Byte) : Mem :=
  if unlisted r = some b then memErase m i else memInsert m i b

/-- Every index of the list is above `lo`, and the indexes rise strictly. -/
def risingFrom : Nat → Mem → Bool
  | _, [] => true
  | lo, (j, _) :: m => lo ≤ j && risingFrom (j + 1) m

/-- The canonical form: indexes strictly rising, and no cell equal to what is known of an unlisted one. -/
def Memory.wf (r : Region) (m : Mem) : Bool := risingFrom 0 m && m.all fun c => unlisted r != some c.2

/-- Each memory's place in the state: the one home of its bytes. -/
def State.mem (s : State) : Region → Mem
  | .ram => s.ram
  | .prgRam => s.mapper.prgRam
  | .chrRam => s.mapper.chrRam
  | .vram => s.ppu.vram
  | .palette => s.ppu.palette
  | .oam => s.ppu.oam
  | .prgRom => s.launch.cart.prgRom
  | .chrRom => s.launch.cart.chrRom

/-- Replace one memory. -/
def State.setMem (s : State) (r : Region) (m : Mem) : State :=
  match r with
  | .ram => { s with ram := m }
  | .prgRam => { s with mapper := { s.mapper with prgRam := m } }
  | .chrRam => { s with mapper := { s.mapper with chrRam := m } }
  | .vram => { s with ppu := { s.ppu with vram := m } }
  | .palette => { s with ppu := { s.ppu with palette := m } }
  | .oam => { s with ppu := { s.ppu with oam := m } }
  | .prgRom => { s with launch := { s.launch with cart := { s.launch.cart with prgRom := m } } }
  | .chrRom => { s with launch := { s.launch with cart := { s.launch.cart with chrRom := m } } }

/-- One byte of one memory: the model's read of a byte, with no side effect. -/
def State.cell (s : State) (r : Region) (i : Nat) : Byte := memRead r (s.mem r) i

/-- Write one byte of one memory. -/
def State.setCell (s : State) (r : Region) (i : Nat) (b : Byte) : State := s.setMem r (memWrite r (s.mem r) i b)

/-- Every memory of the state is in the canonical form. -/
def State.memWf (s : State) : Bool :=
  Memory.wf .ram s.ram && Memory.wf .prgRam s.mapper.prgRam && Memory.wf .chrRam s.mapper.chrRam &&
  Memory.wf .vram s.ppu.vram && Memory.wf .palette s.ppu.palette && Memory.wf .oam s.ppu.oam &&
  Memory.wf .prgRom s.launch.cart.prgRom && Memory.wf .chrRom s.launch.cart.chrRom

end Sys2Proof.Machine
end

