-- ==== Sys2Proof/Machine/Mapper.lean ====
section
/-! DEFINITION. The cartridge and the three mappers: PRG and CHR windows, register writes, mirroring, the scanline hook
(62_mappers_cartridge.md R600 to R656), and the MemoryWindow (20_memory.md R70 to R72). -/

namespace Sys2Proof.Machine

/-- A MemoryWindow (20 R70): a buffer (a memory and the offset of the bank in it), a base address, the writable flag and
the wraparound period, 0 for none. Made per access, never stored. -/
structure Window where
  region   : Region
  offset   : Nat
  base     : Nat
  writable : Bool
  period   : Nat
  deriving DecidableEq, Repr

/-- The buffer index of an address (R71). -/
def Window.index (w : Window) (a : Nat) : Nat := if w.period > 0 then (a - w.base) % w.period else a - w.base

/-- The cell a window's address selects: the buffer's start and the index (R71). -/
def Window.cellIndex (w : Window) (a : Nat) : Nat := w.offset + w.index a

/-- Start of bank `i` of `size` bytes in a buffer of `count` banks: the index is reduced modulo the count (62 R605). -/
def bankStart (size count i : Nat) : Nat := (i % count) * size

/-- 16 KiB PRG banks: `prgPages` of them (R605). -/
def prgBank16 (c : Cartridge) (i : Nat) : Nat := bankStart 0x4000 c.prgPages i

/-- 8 KiB PRG banks: `2 × prgPages` of them (R605). -/
def prgBank8 (c : Cartridge) (i : Nat) : Nat := bankStart 0x2000 (2 * c.prgPages) i

/-- `max(1, chrPages)`: the 8 KiB units of pattern memory, ROM or RAM (R605). -/
def chrUnits (c : Cartridge) : Nat := max 1 c.chrPages

/-- PRG mode of the shift-register variant: `control[3:2]` (R632). -/
def Mmc1.prgMode (m : Mmc1) : Nat := (m.control.extractLsb' 2 2).toNat

/-- The 16 KiB bank of a window of the shift-register variant; `high` is $C000-$FFFF (R633). DEDUCED (log 20): in modes 0 and 1
with an odd number of pages, R633's 16 KiB numbers modulo the pages are followed, not R605's count of 32 KiB banks. -/
def Mmc1.prgBank (m : Mmc1) (prgPages : Nat) (high : Bool) : Nat :=
  let b := (m.prg.extractLsb' 0 4).toNat
  match m.prgMode, high with
  | 2, false => 0
  | 2, true => b
  | 3, false => b
  | 3, true => prgPages - 1
  | _, false => b / 2 * 2
  | _, true => b / 2 * 2 + 1

/-- The 4 KiB CHR bank of a window of the shift-register variant; `high` is $1000-$1FFF (R632, R635). -/
def Mmc1.chrBank (m : Mmc1) (high : Bool) : Nat :=
  if bit m.control 4 then (if high then m.chr1.toNat else m.chr0.toNat)
  else m.chr0.toNat / 2 * 2 + (if high then 1 else 0)

/-- The 8 KiB bank of window `k` (0 at $8000 to 3 at $E000) of the scanline-IRQ variant (R644). -/
def Mmc3.prgBank (m : Mmc3) (prgPages : Nat) (k : Nat) : Nat :=
  let n8 := 2 * prgPages
  match bit m.bankSelect 6, k with
  | _, 3 => n8 - 1
  | _, 1 => m.r7.toNat
  | false, 0 => m.r6.toNat
  | false, _ => n8 - 2
  | true, 0 => n8 - 2
  | true, _ => m.r6.toNat

/-- The 1 KiB CHR bank of window `k` (0 at $0000 to 7 at $1C00) of the scanline-IRQ variant (R646). -/
def Mmc3.chrBank (m : Mmc3) (k : Nat) : Nat :=
  let k := if bit m.bankSelect 7 then (k + 4) % 8 else k
  match k with
  | 0 => (m.r0 &&& 0xFE).toNat
  | 1 => (m.r0 ||| 0x01).toNat
  | 2 => (m.r1 &&& 0xFE).toNat
  | 3 => (m.r1 ||| 0x01).toNat
  | 4 => m.r2.toNat
  | 5 => m.r3.toNat
  | 6 => m.r4.toNat
  | _ => m.r5.toNat

/-- The PRG-ROM window of an address in $8000-$FFFF (R620, R633, R644): a ROM window, not writable (R615). -/
def prgWindow (c : Cartridge) (m : MapperRegs) (a : Word) : Window :=
  match m with
  | .nrom =>
    let bank := if a.toNat < 0xC000 then 0 else if c.prgPages ≥ 2 then c.prgPages - 1 else 0
    ⟨.prgRom, prgBank16 c bank, a.toNat / 0x4000 * 0x4000, false, 0⟩
  | .mmc1 r => ⟨.prgRom, prgBank16 c (r.prgBank c.prgPages (0xC000 ≤ a.toNat)), a.toNat / 0x4000 * 0x4000, false, 0⟩
  | .mmc3 r => ⟨.prgRom, prgBank8 c (r.prgBank c.prgPages ((a.toNat - 0x8000) / 0x2000)), a.toNat / 0x2000 * 0x2000, false, 0⟩

/-- The PRG-RAM window at $6000-$7FFF, `none` where the RAM is absent or disabled (R612, R634, R651). -/
def prgRamWindow (c : Cartridge) : MapperRegs → Option Window
  | .nrom => if c.hasPrgRam then some ⟨.prgRam, 0, 0x6000, true, 0⟩ else none
  | .mmc1 r => if bit r.prg 4 then none else some ⟨.prgRam, 0, 0x6000, true, 0⟩
  | .mmc3 r =>
    if bit r.prgRamProtect 7 then some ⟨.prgRam, 0, 0x6000, !bit r.prgRamProtect 6, 0⟩ else none

/-- The index in pattern memory that a PPU address in $0000-$1FFF selects (R621, R635, R646). -/
def chrIndex (c : Cartridge) (m : MapperRegs) (a : Nat) : Nat :=
  match m with
  | .nrom => a % 0x2000
  | .mmc1 r => bankStart 0x1000 (2 * chrUnits c) (r.chrBank (0x1000 ≤ a)) + a % 0x1000
  | .mmc3 r => bankStart 0x400 (8 * chrUnits c) (r.chrBank (a / 0x400)) + a % 0x400

/-- The pattern memory: CHR ROM, or the 8 KiB CHR-RAM when the cartridge has no CHR page (R613). -/
def chrRegion (c : Cartridge) : Region := if c.chrPages = 0 then .chrRam else .chrRom

/-- The nametable modes (61_ppu.md R541). -/
inductive Mirroring where
  | horizontal | vertical | oneScreenLower | oneScreenUpper | fourScreen
  deriving DecidableEq, Repr

/-- The header's mode (R603). -/
def headerMirroring (c : Cartridge) : Mirroring :=
  if c.fourScreen then .fourScreen else if c.mirroringFlag then .vertical else .horizontal

/-- `mirroring()` (R611): the header's mode, or the variant's control unless four-screen overrides it (R622, R632, R647). -/
def mirroring (c : Cartridge) (m : MapperRegs) : Mirroring :=
  if c.fourScreen then .fourScreen
  else match m with
    | .nrom => headerMirroring c
    | .mmc1 r =>
      match (r.control.extractLsb' 0 2).toNat with
      | 0 => .oneScreenLower
      | 1 => .oneScreenUpper
      | 2 => .vertical
      | _ => .horizontal
    | .mmc3 r => if r.mirrorBit then .horizontal else .vertical

/-- The serial write protocol of the shift-register variant (R631). -/
def Mmc1.write (m : Mmc1) (a : Word) (d : Byte) : Mmc1 :=
  if bit d 7 then { m with shift := 0, count := 0, control := m.control ||| 0x0C }
  else
    let shift := (m.shift >>> 1) ||| ((d.setWidth 5 &&& 1#5) <<< 4)
    if m.count + 1 = 5 then
      let m := { m with shift := 0, count := 0 }
      match (a.extractLsb' 13 2).toNat with
      | 0 => { m with control := shift }
      | 1 => { m with chr0 := shift }
      | 2 => { m with chr1 := shift }
      | _ => { m with prg := shift }
    else { m with shift := shift, count := m.count + 1 }

/-- Bank data: `R[k] <- d` (R643). -/
def Mmc3.setBank (m : Mmc3) (k : Nat) (d : Byte) : Mmc3 :=
  match k with
  | 0 => { m with r0 := d }
  | 1 => { m with r1 := d }
  | 2 => { m with r2 := d }
  | 3 => { m with r3 := d }
  | 4 => { m with r4 := d }
  | 5 => { m with r5 := d }
  | 6 => { m with r6 := d }
  | _ => { m with r7 := d }

/-- The register writes of the scanline-IRQ variant by slot `a & $E001` (R641 to R653): `slot` is `a[14:13]`, `odd` is
`a[0]`. What the write does to the CPU's IRQ latch is `mapperWrite`'s. -/
def Mmc3.write (m : Mmc3) (slot : Nat) (odd : Bool) (d : Byte) : Mmc3 :=
  match slot, odd with
  | 0, false => { m with bankSelect := d }
  | 0, true => m.setBank (m.bankSelect.extractLsb' 0 3).toNat d
  | 1, false => { m with mirrorBit := bit d 0 }
  | 1, true => { m with prgRamProtect := d }
  | 2, false => { m with irqLatch := d }
  | 2, true => { m with irqReload := true }
  | _, false => { m with irqEnabled := false }
  | _, true => { m with irqEnabled := true }

/-- Slot $E000 of the scanline-IRQ variant, the IRQ-disable write (R641, R652). -/
def isIrqAcknowledge (a : Word) : Bool := a &&& 0xE001#16 == 0xE000#16

/-- A CPU write to $8000-$FFFF (R615): dropped by the fixed-bank variant, a register write of the other two (R631, R641).
The IRQ-disable write also clears the CPU's `irqPending` (R652). -/
def mapperWrite (a : Word) (d : Byte) (s : State) : State :=
  match s.mapper.regs with
  | .nrom => s
  | .mmc1 r => { s with mapper := { s.mapper with regs := .mmc1 (r.write a d) } }
  | .mmc3 r =>
    { s with
      mapper := { s.mapper with regs := .mmc3 (r.write (a.extractLsb' 13 2).toNat (bit a 0) d) }
      cpu := { s.cpu with irqPending := s.cpu.irqPending && !isIrqAcknowledge a } }

/-- The scanline-IRQ variant's counter at one `on_scanline()` (R655): reload or decrement. -/
def Mmc3.clock (m : Mmc3) : Mmc3 :=
  if m.irqCounter == 0 || m.irqReload then { m with irqCounter := m.irqLatch, irqReload := false }
  else { m with irqCounter := m.irqCounter - 1 }

/-- `on_scanline()` (R655): a no-op for the variants without an IRQ counter (R623, R637). -/
def onScanline (s : State) : State :=
  match s.mapper.regs with
  | .nrom => s
  | .mmc1 _ => s
  | .mmc3 r =>
    let r := r.clock
    { s with
      mapper := { s.mapper with regs := .mmc3 r }
      cpu := { s.cpu with irqPending := s.cpu.irqPending || (r.irqCounter == 0 && r.irqEnabled) } }

/-- The shift-register variant at power-on (R630). -/
def Mmc1.powerOn : Mmc1 where
  shift := 0
  count := 0
  control := 0x0C
  chr0 := 0
  chr1 := 0
  prg := 0

/-- The scanline-IRQ variant at power-on (R640). -/
def Mmc3.powerOn : Mmc3 where
  bankSelect := 0
  r0 := 0
  r1 := 0
  r2 := 0
  r3 := 0
  r4 := 0
  r5 := 0
  r6 := 0
  r7 := 0
  mirrorBit := false
  prgRamProtect := 0x80
  irqLatch := 0
  irqCounter := 0
  irqReload := false
  irqEnabled := false

/-- The variant a mapper number selects, at power-on (R602). -/
def regsPowerOn (n : Byte) : MapperRegs :=
  if n == 1 then .mmc1 Mmc1.powerOn else if n == 4 then .mmc3 Mmc3.powerOn else .nrom

/-- Whether the variant has PRG-RAM (R612). -/
def hasPrgRam (c : Cartridge) : Bool := c.mapperNumber == 1 || c.mapperNumber == 4 || c.hasPrgRam

/-- A list of bytes as cells from index `k` on. -/
def cellsFrom (r : Region) : Nat → List Byte → Mem
  | _, [] => []
  | k, b :: bs => if unlisted r = some b then cellsFrom r (k + 1) bs else (k, b) :: cellsFrom r (k + 1) bs

/-- The mapper at power-on (R604, R610): registers at power-on, RAM at `InitMem` with the trainer's 512 bytes at PRG-RAM
offsets $1000-$11FF where the variant has PRG-RAM; else the trainer is discarded. -/
def mapperPowerOn (c : Cartridge) : Mapper where
  regs := regsPowerOn c.mapperNumber
  prgRam := if c.hasTrainer && hasPrgRam c then cellsFrom .prgRam 0x1000 c.trainer else []
  chrRam := []

/-- Load a cartridge image (R601, R602): the parsed cartridge, or the load's failure. The file's reading is outside the
core (00_scope.md R6(a)); the expansion buffer has no place in the image and is empty. -/
def loadImage (img : List Byte) : Except Fault Cartridge :=
  if !imageWellFormed img then .error .loadMalformedRom
  else if !mapperSupported (imageMapperNumber img) then .error (.loadUnsupportedMapper (imageMapperNumber img))
  else
    let body := img.drop 16
    let t := if imageHasTrainer img then 512 else 0
    let prg := (imageByte img 4).toNat
    let chr := (imageByte img 5).toNat
    .ok { prgPages := prg
          chrPages := chr
          mapperNumber := imageMapperNumber img
          mirroringFlag := bit (imageByte img 6) 0
          hasPrgRam := bit (imageByte img 6) 1
          hasTrainer := imageHasTrainer img
          fourScreen := bit (imageByte img 6) 3
          prgRom := cellsFrom .prgRom 0 ((body.drop t).take (prg * 16384))
          chrRom := cellsFrom .chrRom 0 ((body.drop (t + prg * 16384)).take (chr * 8192))
          trainer := body.take t
          expansion := [] }

end Sys2Proof.Machine
end

