-- ==== Sys2Proof/Machine/Regs.lean ====
section
/-! DEFINITION. The named updates of registers, flags and latches (00_scope.md R11), and the status byte
(10_state.md R36, R37, R45). Each register has one home, `State.cpu`; every instruction writes it through these. -/

namespace Sys2Proof.Machine

/-- `A <- v` (10 R30). -/
def State.setA (s : State) (v : Byte) : State := { s with cpu := { s.cpu with a := v } }

/-- `X <- v` (R31). -/
def State.setX (s : State) (v : Byte) : State := { s with cpu := { s.cpu with x := v } }

/-- `Y <- v` (R32). -/
def State.setY (s : State) (v : Byte) : State := { s with cpu := { s.cpu with y := v } }

/-- `S <- v` (R33). -/
def State.setS (s : State) (v : Byte) : State := { s with cpu := { s.cpu with s := v } }

/-- `PC <- w` (R34). -/
def State.setPc (s : State) (w : Word) : State := { s with cpu := { s.cpu with pc := w } }

/-- `C <- b` (R35). -/
def State.setC (s : State) (b : Bool) : State := { s with cpu := { s.cpu with c := b } }

/-- `Z <- b` (R35). -/
def State.setZ (s : State) (b : Bool) : State := { s with cpu := { s.cpu with z := b } }

/-- `I <- b` (R35). -/
def State.setI (s : State) (b : Bool) : State := { s with cpu := { s.cpu with i := b } }

/-- `D <- b` (R35). -/
def State.setD (s : State) (b : Bool) : State := { s with cpu := { s.cpu with d := b } }

/-- `V <- b` (R35). -/
def State.setV (s : State) (b : Bool) : State := { s with cpu := { s.cpu with v := b } }

/-- `N <- b` (R35). -/
def State.setN (s : State) (b : Bool) : State := { s with cpu := { s.cpu with n := b } }

/-- `SetNZ(v)`: `N <- v[7]; Z <- (v == 0)` (R45). -/
def State.setNZ (s : State) (v : Byte) : State := { s with cpu := { s.cpu with n := bit v 7, z := v == 0 } }

/-- `sleep <- k` (R40). -/
def State.setSleep (s : State) (k : Nat) : State := { s with cpu := { s.cpu with sleep := k } }

/-- The NMI latch (R41). -/
def State.setNmi (s : State) (b : Bool) : State := { s with cpu := { s.cpu with nmiPending := b } }

/-- The unsupported-opcode record (R43). -/
def State.setUnsupported (s : State) (u : Option UnsupportedOp) : State :=
  { s with cpu := { s.cpu with unsupportedSeen := u } }

/-- The trace snapshot (R44). -/
def State.setTrace (s : State) (t : Option Trace) : State := { s with cpu := { s.cpu with trace := t } }

/-- The open-bus latch (20_memory.md R82). -/
def State.setBusLatch (s : State) (v : Byte) : State := { s with busLatch := v }

/-- Record a fault for the rest of the run; a fatal one stops the clock (60_exceptions.md R408, R421; 70 R721). -/
def State.noteFault (s : State) (c : FaultCause) : State :=
  { s with faults := c :: s.faults, stopped := s.stopped || c.fatal }

/-- Update the PPU. -/
def State.setPpu (s : State) (p : Ppu) : State := { s with ppu := p }

/-- The serialized status byte `P(b)` (R36): N V 1 b D I Z C. -/
def Cpu.status (c : Cpu) (brk : Bool) : Byte :=
  flagAt c.n 7 ||| flagAt c.v 6 ||| 0x20#8 ||| flagAt brk 4 ||| flagAt c.d 3 ||| flagAt c.i 2 ||| flagAt c.z 1 |||
    flagAt c.c 0

/-- Loading a status byte (R37): bits 5 and 4 are discarded. -/
def State.loadStatus (s : State) (v : Byte) : State :=
  { s with cpu := { s.cpu with n := bit v 7, v := bit v 6, d := bit v 3, i := bit v 2, z := bit v 1, c := bit v 0 } }

end Sys2Proof.Machine
end

