-- ==== Sys2Proof/Machine/Ports.lean ====
section
/-! DEFINITION. The PPU bus (61_ppu.md R540 to R542) and the PPU's CPU-visible ports (R520 to R533). -/

namespace Sys2Proof.Machine

/-- The `vram` index of a nametable address, by mirroring mode (R541). -/
def nametableIndex (mode : Mirroring) (a : Nat) : Nat :=
  let n := a / 0x400 % 4
  let o := a % 0x400
  match mode with
  | .horizontal => n / 2 * 0x400 + o
  | .vertical => n % 2 * 0x400 + o
  | .oneScreenLower => o
  | .oneScreenUpper => 0x400 + o
  | .fourScreen => n * 0x400 + o

/-- The palette index of an address in $3F00-$3FFF: $10, $14, $18, $1C mirror $00, $04, $08, $0C (R542). -/
def paletteIndex (a : Nat) : Nat :=
  let i := a % 0x20
  if i = 0x10 ∨ i = 0x14 ∨ i = 0x18 ∨ i = 0x1C then i - 0x10 else i

/-- The PPU-side decoder (R540): the memory and the index in it that a 14-bit address selects. -/
def ppuSelect (s : State) (a : PpuAddr) : Region × Nat :=
  let c := s.launch.cart
  if a.toNat < 0x2000 then (chrRegion c, chrIndex c s.mapper.regs a.toNat)
  else if a.toNat < 0x3F00 then (.vram, nametableIndex (mirroring c s.mapper.regs) a.toNat)
  else (.palette, paletteIndex a.toNat)

/-- `PpuRead(a)` (R540 to R542): palette entries are 6 bits, bits 7..6 read 0. -/
def ppuRead (s : State) (a : PpuAddr) : Byte :=
  match ppuSelect s a with
  | (.palette, i) => s.cell .palette i &&& 0x3F
  | (r, i) => s.cell r i

/-- `PpuWrite(a, d)` (R540 to R542; 62 R613): dropped on CHR ROM, masked to 6 bits in the palette. -/
def ppuWrite (s : State) (a : PpuAddr) (d : Byte) : State :=
  match ppuSelect s a with
  | (.chrRom, _) => s
  | (.palette, i) => s.setCell .palette i (d &&& 0x3F)
  | (r, i) => s.setCell r i d

/-- `renderingEnabled = mask[3] | mask[4]` (R502). -/
def Ppu.renderingEnabled (p : Ppu) : Bool := bit p.mask 3 || bit p.mask 4

/-- The status byte of port 2 (R503): flags in bits 7..5, `ioLatch` below. -/
def Ppu.status (p : Ppu) : Byte :=
  flagAt p.vblank 7 ||| flagAt p.sprite0Hit 6 ||| flagAt p.spriteOverflow 5 ||| (p.ioLatch &&& 0x1F)

/-- The PPU bus address formed from `v`: `v & $3FFF` (R504, R530). -/
def Ppu.busAddr (p : Ppu) : PpuAddr := p.v.setWidth 14

/-- `v` after a port-7 access: plus 1 or 32 by `ctrl[2]`, modulo $8000 (R530, R531). -/
def Ppu.vIncremented (p : Ppu) : VramAddr := p.v + (if bit p.ctrl 2 then 32 else 1)

/-- Port 2 read (R523). -/
def readStatusPort (s : State) : Byte × State :=
  let r := s.ppu.status
  (r, s.setPpu { s.ppu with vblank := false, w := false, ioLatch := r })

/-- Port 4 read (R527). -/
def readOamPort (s : State) : Byte × State :=
  let r := s.cell .oam s.ppu.oamAddr.toNat
  (r, s.setPpu { s.ppu with ioLatch := r })

/-- What a port-7 read returns (R530): the read buffer below the palette, the palette entry at once in it. -/
def dataPortValue (s : State) : Byte :=
  if s.ppu.busAddr.toNat < 0x3F00 then s.ppu.readBuffer else ppuRead s s.ppu.busAddr

/-- What a port-7 read leaves in the read buffer (R530): the byte at the address, or the nametable byte underneath. -/
def dataPortBuffer (s : State) : Byte :=
  if s.ppu.busAddr.toNat < 0x3F00 then ppuRead s s.ppu.busAddr else ppuRead s (s.ppu.busAddr - 0x1000#14)

/-- Port 7 read (R530). -/
def readDataPort (s : State) : Byte × State :=
  let r := dataPortValue s
  (r, s.setPpu { s.ppu with readBuffer := dataPortBuffer s, v := s.ppu.vIncremented, ioLatch := r })

/-- A port read (R520); the write-only ports return `ioLatch` and change nothing (R532). -/
def portRead (p : Nat) (s : State) : Byte × State :=
  match p with
  | 2 => readStatusPort s
  | 4 => readOamPort s
  | 7 => readDataPort s
  | _ => (s.ppu.ioLatch, s)

/-- Port 0 write (R522): `t[11:10] <- d[1:0]`, and an NMI where `ctrl[7]` goes from 0 to 1 during vblank (R576). -/
def writeCtrlPort (d : Byte) (s : State) : State :=
  let raise := !bit s.ppu.ctrl 7 && bit d 7 && s.ppu.vblank
  (s.setPpu { s.ppu with ctrl := d, t := setBits 0x0C00#15 s.ppu.t (d.setWidth 15 <<< 10) }).setNmi
    (s.cpu.nmiPending || raise)

/-- Port 1 write (R524). -/
def writeMaskPort (d : Byte) (s : State) : State := s.setPpu { s.ppu with mask := d }

/-- Port 3 write (R525). -/
def writeOamAddrPort (d : Byte) (s : State) : State := s.setPpu { s.ppu with oamAddr := d }

/-- Port 4 write (R526). -/
def writeOamPort (d : Byte) (s : State) : State :=
  let s := s.setCell .oam s.ppu.oamAddr.toNat d
  s.setPpu { s.ppu with oamAddr := s.ppu.oamAddr + 1 }

/-- Port 5 write (R528). -/
def writeScrollPort (d : Byte) (s : State) : State :=
  if !s.ppu.w then
    s.setPpu { s.ppu with
      t := setBits 0x001F#15 s.ppu.t ((d >>> 3).setWidth 15)
      x := d.setWidth 3
      w := true }
  else
    s.setPpu { s.ppu with
      t := setBits 0x03E0#15 (setBits 0x7000#15 s.ppu.t (d.setWidth 15 <<< 12)) ((d >>> 3).setWidth 15 <<< 5)
      w := false }

/-- Port 6 write (R529). -/
def writeAddrPort (d : Byte) (s : State) : State :=
  if !s.ppu.w then
    s.setPpu { s.ppu with t := setBits 0x7F00#15 s.ppu.t ((d &&& 0x3F).setWidth 15 <<< 8), w := true }
  else
    let t := setBits 0x00FF#15 s.ppu.t (d.setWidth 15)
    s.setPpu { s.ppu with t := t, v := t, w := false }

/-- Port 7 write (R531). -/
def writeDataPort (d : Byte) (s : State) : State :=
  let s := ppuWrite s s.ppu.busAddr d
  s.setPpu { s.ppu with v := s.ppu.vIncremented }

/-- A port write (R521): `ioLatch <- d`, then the port's own write; port 2 is read-only. -/
def portWrite (p : Nat) (d : Byte) (s : State) : State :=
  let s := s.setPpu { s.ppu with ioLatch := d }
  match p with
  | 0 => writeCtrlPort d s
  | 1 => writeMaskPort d s
  | 3 => writeOamAddrPort d s
  | 4 => writeOamPort d s
  | 5 => writeScrollPort d s
  | 6 => writeAddrPort d s
  | 7 => writeDataPort d s
  | _ => s

end Sys2Proof.Machine
end

