-- ==== Sys2Proof/Machine/Ops.lean ====
section
/-! DEFINITION. The CPU bus (20_memory.md R74 to R92), the stack (43_stack.md R260 to R262), the interrupt sequence and the
return from it (60_exceptions.md R409, R410; 45_flags_system.md R299). -/

namespace Sys2Proof.Machine

/-- What the CPU decoder selects for an address (R75). -/
inductive Target where
  /-- a buffer window: RAM, PRG-RAM or PRG ROM (R70) -/
  | window (w : Window)
  /-- a PPU port, a device window (R73, R78) -/
  | port (p : Nat)
  /-- no region (R83) -/
  | openBus
  deriving DecidableEq, Repr

/-- The internal RAM window: base $0000, writable, period $0800 (R76; $0000-$0001 among it, R77). -/
def ramWindow : Window := ⟨.ram, 0, 0, true, 0x800⟩

/-- The CPU bus decoder (R75): the mapper's range $6000-$FFFF first (R79), then RAM, then the PPU ports by `a & 7` (R78),
then open bus (R83 to R85). Total (R87). -/
def busSelect (s : State) (a : Word) : Target :=
  if 0x8000 ≤ a.toNat then .window (prgWindow s.launch.cart s.mapper.regs a)
  else if 0x6000 ≤ a.toNat then
    match prgRamWindow s.launch.cart s.mapper.regs with
    | some w => .window w
    | none => .openBus
  else if a.toNat < 0x2000 then .window ramWindow
  else if a.toNat < 0x4000 then .port (a.toNat % 8)
  else .openBus

/-- `MemRead(a, 1)` (R80): read the selected window, then `busLatch <- v`; open bus returns the latch (R83). -/
def busRead (a : Word) (s : State) : Byte × State :=
  match busSelect s a with
  | .window w =>
    let v := s.cell w.region (w.cellIndex a.toNat)
    (v, s.setBusLatch v)
  | .port p =>
    let r := portRead p s
    (r.1, r.2.setBusLatch r.1)
  | .openBus => (s.busLatch, s)

/-- `MemWrite(a, 1, v)` (R81): `busLatch <- v`, then the selected window's write, dropped where it is not writable (R72);
a write to $8000-$FFFF is the mapper's (62 R615). -/
def busWrite (a : Word) (v : Byte) (s : State) : State :=
  let s := s.setBusLatch v
  if 0x8000 ≤ a.toNat then mapperWrite a v s
  else
    match busSelect s a with
    | .window w => if w.writable then s.setCell w.region (w.cellIndex a.toNat) v else s
    | .port p => portWrite p v s
    | .openBus => s

/-- The memory cell a CPU write to `a` stores to, `none` where it stores no byte: RAM, writable PRG-RAM, OAM through port 4,
and through port 7 the PPU memory cell that `v` selects. -/
def storedCell (s : State) (a : Word) : Option (Region × Nat) :=
  if 0x8000 ≤ a.toNat then none
  else
    match busSelect s a with
    | .window w => if w.writable then some (w.region, w.cellIndex a.toNat) else none
    | .port 4 => some (.oam, s.ppu.oamAddr.toNat)
    | .port 7 =>
      match ppuSelect s s.ppu.busAddr with
      | (.chrRom, _) => none
      | (r, i) => some (r, i)
    | .port _ => none
    | .openBus => none

/-- An address in the PPU port range $2000-$3FFF. -/
def isPort (a : Word) : Bool := 0x2000 ≤ a.toNat && a.toNat < 0x4000

/-- `MemRead(a, 2)` (R90): little-endian, the second address modulo $10000; fatal, before any byte is read, where either
byte is a PPU port (R91). -/
def readWord (a : Word) (s : State) : Except Fault (Word × State) :=
  if isPort a || isPort (a + 1) then .error (.portWordRead a s)
  else
    let lo := busRead a s
    let hi := busRead (a + 1) lo.2
    .ok (mkWord hi.1 lo.1, hi.2)

/-- The stack address `$0100 + S` (43 R260). -/
def stackAddr (sp : Byte) : Word := 0x0100 + zext sp

/-- `Push(v)` (R260): the write, then S minus 1, with no check. -/
def push (v : Byte) (s : State) : State :=
  let t := busWrite (stackAddr s.cpu.s) v s
  t.setS (s.cpu.s - 1)

/-- `Pull()` (R261): S plus 1, then the read. -/
def pull (s : State) : Byte × State :=
  let t := s.setS (s.cpu.s + 1)
  busRead (stackAddr t.cpu.s) t

/-- `Push16(w)` (R262): high byte first. -/
def push16 (w : Word) (s : State) : State := push (loByte w) (push (hiByte w) s)

/-- `Pull16()` (R262): low byte first. -/
def pull16 (s : State) : Word × State :=
  let lo := pull s
  let hi := pull lo.2
  (mkWord hi.1 lo.1, hi.2)

/-- The four kinds of interrupt (60 R409). -/
inductive IntKind where
  | nmi | irq | brk | reset
  deriving DecidableEq, Repr

/-- `vector(kind)` (R409): BRK and IRQ share $FFFE (R418). -/
def IntKind.vector : IntKind → Word
  | .nmi => 0xFFFA
  | .reset => 0xFFFC
  | .irq | .brk => 0xFFFE

/-- `VectorFetch(v)` (R410): $FFFF is fatal. -/
def vectorFetch (v : Word) (s : State) : Except Fault (Word × State) :=
  match readWord v s with
  | .error f => .error f
  | .ok (w, t) => if w = 0xFFFF then .error (.badVector v t) else .ok (w, t)

/-- The pushes of the interrupt sequence (R409): PC high, PC low, then `P(b)` with `b = 1` for BRK only (R411); Reset pushes
nothing. -/
def pushReturn (k : IntKind) (s : State) : State :=
  match k with
  | .reset => s
  | .brk => push (s.cpu.status true) (push16 s.cpu.pc s)
  | .nmi | .irq => push (s.cpu.status false) (push16 s.cpu.pc s)

/-- `Interrupt(kind)` (R409): taking an exception. The return state is pushed (but for Reset), I is set, PC is the vector,
cost 7; nothing else changes (R412). -/
def takeInterrupt (k : IntKind) (s : State) : Outcome :=
  match vectorFetch k.vector ((pushReturn k s).setI true) with
  | .error f => .fault f
  | .ok (w, t) => .next ((t.setPc w).setSleep 6)

/-- Return from interrupt (45 R299): the status, then PC, from the stack. -/
def returnFromInterrupt (s : State) : State :=
  let v := pull s
  let r := pull16 (v.2.loadStatus v.1)
  r.2.setPc r.1

/-- The end of an instruction of cost `c` (60 R402): `sleep <- c - 1`. -/
def finish (c : Nat) (s : State) : Outcome := .next (s.setSleep (c - 1))

end Sys2Proof.Machine
end

