-- ==== Sys2Proof/Machine/Operands.lean ====
section
/-! DEFINITION. The addressing modes (30_encoding.md R139 to R150) and the operand read (R151). The operand bytes have been
fetched when a meaning runs, so PC is the address after the instruction's last byte (R138). -/

namespace Sys2Proof.Machine

/-- What an addressing mode yields (R139): the effective address, the page-cross flag, and the state after the mode's
pointer reads. -/
structure Located where
  ea      : Word
  crossed : Bool
  st      : State

/-- `z + i` inside page zero, as an address (R145, R148). -/
def zeroPage (z i : Byte) : Word := zext (z + i)

/-- The two pointer reads of the indirect modes, low byte then high byte (R138), as `hi ++ lo`. -/
def readPointer (loAddr hiAddr : Word) (s : State) : Word × State :=
  let lo := busRead loAddr s
  let hi := busRead hiAddr lo.2
  (mkWord hi.1 lo.1, hi.2)

/-- An absolute indexed address (R146): the sum carries into the high byte and wraps at $FFFF. -/
def indexed (base : Word) (r : Byte) : Word := base + zext r

/-- The effective address of a mode (R143 to R149). -/
def locate (a : Addr) (s : State) : Located :=
  match a with
  | .zp b => ⟨zeroPage b 0, false, s⟩
  | .zpx b => ⟨zeroPage b s.cpu.x, false, s⟩
  | .zpy b => ⟨zeroPage b s.cpu.y, false, s⟩
  | .abs w => ⟨w, false, s⟩
  | .absx w => ⟨indexed w s.cpu.x, pageCrossed w (indexed w s.cpu.x), s⟩
  | .absy w => ⟨indexed w s.cpu.y, pageCrossed w (indexed w s.cpu.y), s⟩
  | .ind w =>
    let p := readPointer w (mkWord (hiByte w) (loByte w + 1)) s
    ⟨p.1, false, p.2⟩
  | .indx b =>
    let p := readPointer (zeroPage b s.cpu.x) (zeroPage b (s.cpu.x + 1)) s
    ⟨p.1, false, p.2⟩
  | .indy b =>
    let p := readPointer (zeroPage b 0) (zeroPage b 1) s
    ⟨indexed p.1 s.cpu.y, pageCrossed p.1 (indexed p.1 s.cpu.y), p.2⟩

/-- An operand byte that has been read, the page-cross flag, and the state after the reads. -/
structure Fetched where
  value   : Byte
  crossed : Bool
  st      : State

/-- The operand byte of a source (R142, R151): A, the immediate byte the fetch has read, or a bus read at the effective
address. -/
def readSource (src : Source) (s : State) : Fetched :=
  match src with
  | .acc => ⟨s.cpu.a, false, s⟩
  | .imm b => ⟨b, false, s⟩
  | .mem a =>
    let l := locate a s
    let r := busRead l.ea l.st
    ⟨r.1, l.crossed, r.2⟩

/-- The page-cross penalty of the read opcodes in the modes absx, absy and indy (R171): a source of another mode is never
`crossed`. -/
def penalty (crossed : Bool) : Nat := if crossed then 1 else 0

/-- A branch's target (R150): relative to the following instruction, modulo $10000. -/
def branchTarget (next : Word) (d : Byte) : Word := next + sext d

/-- The effective address of an instruction, for the trace snapshot (10_state.md R44): an immediate's is the operand byte's
own address (R142), PC - 1 once it has been fetched; implied, accumulator and relative form none (log 11). -/
def effectiveAddress (o : Operand) (s : State) : Option Word :=
  match o with
  | .imp => none
  | .rel _ => none
  | .src .acc => none
  | .src (.imm _) => some (s.cpu.pc - 1)
  | .src (.mem a) => some (locate a s).ea

end Sys2Proof.Machine
end

