-- ==== Sys2Proof/Machine/Flags.lean ====
section
/-! DEFINITION. The ALU's results and flags (41_arithmetic_logic.md R220 to R229, 42_shift_rotate.md R250 to R253). -/

namespace Sys2Proof.Machine

/-- A carry as a number. -/
def carryNat (c : Bool) : Nat := if c then 1 else 0

/-- The widened sum of an addition (R220, R221): 0 to $1FF. -/
def addSum (a m : Byte) (c : Bool) : Nat := a.toNat + m.toNat + carryNat c

/-- `r <- sum & $FF` (R221). -/
def addResult (a m : Byte) (c : Bool) : Byte := BitVec.ofNat 8 (addSum a m c)

/-- `C <- sum[8]` (R221). -/
def addCarry (a m : Byte) (c : Bool) : Bool := (addSum a m c).testBit 8

/-- `V <- ((r ^ A) & (r ^ M) & $80) != 0` (R221). -/
def addOverflow (a m : Byte) (c : Bool) : Bool :=
  ((addResult a m c ^^^ a) &&& (addResult a m c ^^^ m) &&& 0x80) != 0

/-- ADC's effect on A and the flags (R221); D is read by nothing (R220). -/
def adc (m : Byte) (s : State) : State :=
  let a := s.cpu.a
  let c := s.cpu.c
  (((s.setC (addCarry a m c)).setV (addOverflow a m c)).setA (addResult a m c)).setNZ (addResult a m c)

/-- SBC is ADC of the one's complement of the operand (R222). -/
def sbc (m : Byte) (s : State) : State := adc (m ^^^ 0xFF) s

/-- `A <- v; SetNZ(A)`. -/
def loadA (v : Byte) (s : State) : State := (s.setA v).setNZ v

/-- `X <- v; SetNZ(X)`. -/
def loadX (v : Byte) (s : State) : State := (s.setX v).setNZ v

/-- `Y <- v; SetNZ(Y)`. -/
def loadY (v : Byte) (s : State) : State := (s.setY v).setNZ v

/-- `A <- A & M` (R223). -/
def andA (m : Byte) (s : State) : State := loadA (s.cpu.a &&& m) s

/-- `A <- A | M` (R224). -/
def oraA (m : Byte) (s : State) : State := loadA (s.cpu.a ||| m) s

/-- `A <- A ^ M` (R225). -/
def eorA (m : Byte) (s : State) : State := loadA (s.cpu.a ^^^ m) s

/-- `Compare(R, M)` (R226): C is the unsigned `R >= M`, N and Z of the difference; no register is written. -/
def compare (r m : Byte) (s : State) : State := (s.setC (m.toNat ≤ r.toNat)).setNZ (r - m)

/-- BIT (R229): Z of `A & M`, N and V from M itself. -/
def bitTest (m : Byte) (s : State) : State :=
  ((s.setZ (s.cpu.a &&& m == 0)).setN (bit m 7)).setV (bit m 6)

/-- A shift's result and its new carry. -/
structure Shifted where
  result : Byte
  carry  : Bool

/-- ASL (R250). -/
def aslOf (v : Byte) (_c : Bool) : Shifted := ⟨v <<< 1, bit v 7⟩

/-- LSR (R251). -/
def lsrOf (v : Byte) (_c : Bool) : Shifted := ⟨v >>> 1, bit v 0⟩

/-- ROL (R252): the old carry enters at bit 0. -/
def rolOf (v : Byte) (c : Bool) : Shifted := ⟨(v <<< 1) ||| flagAt c 0, bit v 7⟩

/-- ROR (R253): the old carry enters at bit 7. -/
def rorOf (v : Byte) (c : Bool) : Shifted := ⟨(v >>> 1) ||| flagAt c 7, bit v 0⟩

end Sys2Proof.Machine
end

