-- ==== Sys2Proof/Machine/Load.lean ====
section
/-! DEFINITION. Loads, stores and register transfers (40_load_store_transfer.md R200 to R211). -/

namespace Sys2Proof.Machine

/-- A read instruction: the operand byte, then its effect, cost `c` and one more where the indexed address crosses a page
(30_encoding.md R171). -/
def execRead (c : Nat) (src : Source) (f : Byte → State → State) (s : State) : Outcome :=
  let r := readSource src s
  finish (c + penalty r.crossed) (f r.value r.st)

/-- A store (R203 to R205): one write at the effective address, no flag, no page penalty (30 R171). -/
def execStore (c : Nat) (a : Addr) (v : Byte) (s : State) : Outcome :=
  let l := locate a s
  finish c (busWrite l.ea v l.st)

/-- LDA imm, $A9 (40 R200). -/
def execLdaImm (b : Byte) (s : State) : Outcome :=
  execRead 2 (.imm b) loadA s

/-- LDA zp, $A5 (40 R200). -/
def execLdaZp (b : Byte) (s : State) : Outcome :=
  execRead 3 (.mem (.zp b)) loadA s

/-- LDA zpx, $B5 (40 R200). -/
def execLdaZpx (b : Byte) (s : State) : Outcome :=
  execRead 4 (.mem (.zpx b)) loadA s

/-- LDA abs, $AD (40 R200). -/
def execLdaAbs (w : Word) (s : State) : Outcome :=
  execRead 4 (.mem (.abs w)) loadA s

/-- LDA absx, $BD (40 R200). -/
def execLdaAbsx (w : Word) (s : State) : Outcome :=
  execRead 4 (.mem (.absx w)) loadA s

/-- LDA absy, $B9 (40 R200). -/
def execLdaAbsy (w : Word) (s : State) : Outcome :=
  execRead 4 (.mem (.absy w)) loadA s

/-- LDA indx, $A1 (40 R200). -/
def execLdaIndx (b : Byte) (s : State) : Outcome :=
  execRead 6 (.mem (.indx b)) loadA s

/-- LDA indy, $B1 (40 R200). -/
def execLdaIndy (b : Byte) (s : State) : Outcome :=
  execRead 5 (.mem (.indy b)) loadA s

/-- LDX imm, $A2 (40 R201). -/
def execLdxImm (b : Byte) (s : State) : Outcome :=
  execRead 2 (.imm b) loadX s

/-- LDX zp, $A6 (40 R201). -/
def execLdxZp (b : Byte) (s : State) : Outcome :=
  execRead 3 (.mem (.zp b)) loadX s

/-- LDX zpy, $B6 (40 R201). -/
def execLdxZpy (b : Byte) (s : State) : Outcome :=
  execRead 4 (.mem (.zpy b)) loadX s

/-- LDX abs, $AE (40 R201). -/
def execLdxAbs (w : Word) (s : State) : Outcome :=
  execRead 4 (.mem (.abs w)) loadX s

/-- LDX absy, $BE (40 R201). -/
def execLdxAbsy (w : Word) (s : State) : Outcome :=
  execRead 4 (.mem (.absy w)) loadX s

/-- LDY imm, $A0 (40 R202). -/
def execLdyImm (b : Byte) (s : State) : Outcome :=
  execRead 2 (.imm b) loadY s

/-- LDY zp, $A4 (40 R202). -/
def execLdyZp (b : Byte) (s : State) : Outcome :=
  execRead 3 (.mem (.zp b)) loadY s

/-- LDY zpx, $B4 (40 R202). -/
def execLdyZpx (b : Byte) (s : State) : Outcome :=
  execRead 4 (.mem (.zpx b)) loadY s

/-- LDY abs, $AC (40 R202). -/
def execLdyAbs (w : Word) (s : State) : Outcome :=
  execRead 4 (.mem (.abs w)) loadY s

/-- LDY absx, $BC (40 R202). -/
def execLdyAbsx (w : Word) (s : State) : Outcome :=
  execRead 4 (.mem (.absx w)) loadY s

/-- STA zp, $85 (40 R203). -/
def execStaZp (b : Byte) (s : State) : Outcome :=
  execStore 3 (.zp b) s.cpu.a s

/-- STA zpx, $95 (40 R203). -/
def execStaZpx (b : Byte) (s : State) : Outcome :=
  execStore 4 (.zpx b) s.cpu.a s

/-- STA abs, $8D (40 R203). -/
def execStaAbs (w : Word) (s : State) : Outcome :=
  execStore 4 (.abs w) s.cpu.a s

/-- STA absx, $9D (40 R203). -/
def execStaAbsx (w : Word) (s : State) : Outcome :=
  execStore 5 (.absx w) s.cpu.a s

/-- STA absy, $99 (40 R203). -/
def execStaAbsy (w : Word) (s : State) : Outcome :=
  execStore 5 (.absy w) s.cpu.a s

/-- STA indx, $81 (40 R203). -/
def execStaIndx (b : Byte) (s : State) : Outcome :=
  execStore 6 (.indx b) s.cpu.a s

/-- STA indy, $91 (40 R203). -/
def execStaIndy (b : Byte) (s : State) : Outcome :=
  execStore 6 (.indy b) s.cpu.a s

/-- STX zp, $86 (40 R204). -/
def execStxZp (b : Byte) (s : State) : Outcome :=
  execStore 3 (.zp b) s.cpu.x s

/-- STX zpy, $96 (40 R204). -/
def execStxZpy (b : Byte) (s : State) : Outcome :=
  execStore 4 (.zpy b) s.cpu.x s

/-- STX abs, $8E (40 R204). -/
def execStxAbs (w : Word) (s : State) : Outcome :=
  execStore 4 (.abs w) s.cpu.x s

/-- STY zp, $84 (40 R205). -/
def execStyZp (b : Byte) (s : State) : Outcome :=
  execStore 3 (.zp b) s.cpu.y s

/-- STY zpx, $94 (40 R205). -/
def execStyZpx (b : Byte) (s : State) : Outcome :=
  execStore 4 (.zpx b) s.cpu.y s

/-- STY abs, $8C (40 R205). -/
def execStyAbs (w : Word) (s : State) : Outcome :=
  execStore 4 (.abs w) s.cpu.y s

/-- TAX imp, $AA (40 R206). -/
def execTax (s : State) : Outcome :=
  finish 2 (loadX s.cpu.a s)

/-- TAY imp, $A8 (40 R207). -/
def execTay (s : State) : Outcome :=
  finish 2 (loadY s.cpu.a s)

/-- TXA imp, $8A (40 R208). -/
def execTxa (s : State) : Outcome :=
  finish 2 (loadA s.cpu.x s)

/-- TYA imp, $98 (40 R209). -/
def execTya (s : State) : Outcome :=
  finish 2 (loadA s.cpu.y s)

/-- TSX imp, $BA (40 R210). -/
def execTsx (s : State) : Outcome :=
  finish 2 (loadX s.cpu.s s)

/-- TXS imp, $9A (40 R211): no flag. -/
def execTxs (s : State) : Outcome :=
  finish 2 (s.setS s.cpu.x)

end Sys2Proof.Machine
end

