-- ==== Sys2Proof/Machine/Alu.lean ====
section
/-! DEFINITION. Arithmetic, logic, compare, increment and decrement (41_arithmetic_logic.md R220 to R235). -/

namespace Sys2Proof.Machine

/-- INC and DEC (R230, R231): one read, one write, N and Z of the result. -/
def execIncDec (c : Nat) (a : Addr) (f : Byte → Byte) (s : State) : Outcome :=
  let l := locate a s
  let r := busRead l.ea l.st
  finish c ((busWrite l.ea (f r.1) r.2).setNZ (f r.1))

/-- ADC imm, $69 (41 R221). -/
def execAdcImm (b : Byte) (s : State) : Outcome :=
  execRead 2 (.imm b) adc s

/-- ADC zp, $65 (41 R221). -/
def execAdcZp (b : Byte) (s : State) : Outcome :=
  execRead 3 (.mem (.zp b)) adc s

/-- ADC zpx, $75 (41 R221). -/
def execAdcZpx (b : Byte) (s : State) : Outcome :=
  execRead 4 (.mem (.zpx b)) adc s

/-- ADC abs, $6D (41 R221). -/
def execAdcAbs (w : Word) (s : State) : Outcome :=
  execRead 4 (.mem (.abs w)) adc s

/-- ADC absx, $7D (41 R221). -/
def execAdcAbsx (w : Word) (s : State) : Outcome :=
  execRead 4 (.mem (.absx w)) adc s

/-- ADC absy, $79 (41 R221). -/
def execAdcAbsy (w : Word) (s : State) : Outcome :=
  execRead 4 (.mem (.absy w)) adc s

/-- ADC indx, $61 (41 R221). -/
def execAdcIndx (b : Byte) (s : State) : Outcome :=
  execRead 6 (.mem (.indx b)) adc s

/-- ADC indy, $71 (41 R221). -/
def execAdcIndy (b : Byte) (s : State) : Outcome :=
  execRead 5 (.mem (.indy b)) adc s

/-- SBC imm, $E9 (41 R222). -/
def execSbcImm (b : Byte) (s : State) : Outcome :=
  execRead 2 (.imm b) sbc s

/-- SBC zp, $E5 (41 R222). -/
def execSbcZp (b : Byte) (s : State) : Outcome :=
  execRead 3 (.mem (.zp b)) sbc s

/-- SBC zpx, $F5 (41 R222). -/
def execSbcZpx (b : Byte) (s : State) : Outcome :=
  execRead 4 (.mem (.zpx b)) sbc s

/-- SBC abs, $ED (41 R222). -/
def execSbcAbs (w : Word) (s : State) : Outcome :=
  execRead 4 (.mem (.abs w)) sbc s

/-- SBC absx, $FD (41 R222). -/
def execSbcAbsx (w : Word) (s : State) : Outcome :=
  execRead 4 (.mem (.absx w)) sbc s

/-- SBC absy, $F9 (41 R222). -/
def execSbcAbsy (w : Word) (s : State) : Outcome :=
  execRead 4 (.mem (.absy w)) sbc s

/-- SBC indx, $E1 (41 R222). -/
def execSbcIndx (b : Byte) (s : State) : Outcome :=
  execRead 6 (.mem (.indx b)) sbc s

/-- SBC indy, $F1 (41 R222). -/
def execSbcIndy (b : Byte) (s : State) : Outcome :=
  execRead 5 (.mem (.indy b)) sbc s

/-- AND imm, $29 (41 R223). -/
def execAndImm (b : Byte) (s : State) : Outcome :=
  execRead 2 (.imm b) andA s

/-- AND zp, $25 (41 R223). -/
def execAndZp (b : Byte) (s : State) : Outcome :=
  execRead 3 (.mem (.zp b)) andA s

/-- AND zpx, $35 (41 R223). -/
def execAndZpx (b : Byte) (s : State) : Outcome :=
  execRead 4 (.mem (.zpx b)) andA s

/-- AND abs, $2D (41 R223). -/
def execAndAbs (w : Word) (s : State) : Outcome :=
  execRead 4 (.mem (.abs w)) andA s

/-- AND absx, $3D (41 R223). -/
def execAndAbsx (w : Word) (s : State) : Outcome :=
  execRead 4 (.mem (.absx w)) andA s

/-- AND absy, $39 (41 R223). -/
def execAndAbsy (w : Word) (s : State) : Outcome :=
  execRead 4 (.mem (.absy w)) andA s

/-- AND indx, $21 (41 R223). -/
def execAndIndx (b : Byte) (s : State) : Outcome :=
  execRead 6 (.mem (.indx b)) andA s

/-- AND indy, $31 (41 R223). -/
def execAndIndy (b : Byte) (s : State) : Outcome :=
  execRead 5 (.mem (.indy b)) andA s

/-- ORA imm, $09 (41 R224). -/
def execOraImm (b : Byte) (s : State) : Outcome :=
  execRead 2 (.imm b) oraA s

/-- ORA zp, $05 (41 R224). -/
def execOraZp (b : Byte) (s : State) : Outcome :=
  execRead 3 (.mem (.zp b)) oraA s

/-- ORA zpx, $15 (41 R224). -/
def execOraZpx (b : Byte) (s : State) : Outcome :=
  execRead 4 (.mem (.zpx b)) oraA s

/-- ORA abs, $0D (41 R224). -/
def execOraAbs (w : Word) (s : State) : Outcome :=
  execRead 4 (.mem (.abs w)) oraA s

/-- ORA absx, $1D (41 R224). -/
def execOraAbsx (w : Word) (s : State) : Outcome :=
  execRead 4 (.mem (.absx w)) oraA s

/-- ORA absy, $19 (41 R224). -/
def execOraAbsy (w : Word) (s : State) : Outcome :=
  execRead 4 (.mem (.absy w)) oraA s

/-- ORA indx, $01 (41 R224). -/
def execOraIndx (b : Byte) (s : State) : Outcome :=
  execRead 6 (.mem (.indx b)) oraA s

/-- ORA indy, $11 (41 R224). -/
def execOraIndy (b : Byte) (s : State) : Outcome :=
  execRead 5 (.mem (.indy b)) oraA s

/-- EOR imm, $49 (41 R225). -/
def execEorImm (b : Byte) (s : State) : Outcome :=
  execRead 2 (.imm b) eorA s

/-- EOR zp, $45 (41 R225). -/
def execEorZp (b : Byte) (s : State) : Outcome :=
  execRead 3 (.mem (.zp b)) eorA s

/-- EOR zpx, $55 (41 R225). -/
def execEorZpx (b : Byte) (s : State) : Outcome :=
  execRead 4 (.mem (.zpx b)) eorA s

/-- EOR abs, $4D (41 R225). -/
def execEorAbs (w : Word) (s : State) : Outcome :=
  execRead 4 (.mem (.abs w)) eorA s

/-- EOR absx, $5D (41 R225). -/
def execEorAbsx (w : Word) (s : State) : Outcome :=
  execRead 4 (.mem (.absx w)) eorA s

/-- EOR absy, $59 (41 R225). -/
def execEorAbsy (w : Word) (s : State) : Outcome :=
  execRead 4 (.mem (.absy w)) eorA s

/-- EOR indx, $41 (41 R225). -/
def execEorIndx (b : Byte) (s : State) : Outcome :=
  execRead 6 (.mem (.indx b)) eorA s

/-- EOR indy, $51 (41 R225). -/
def execEorIndy (b : Byte) (s : State) : Outcome :=
  execRead 5 (.mem (.indy b)) eorA s

/-- CMP imm, $C9 (41 R226). -/
def execCmpImm (b : Byte) (s : State) : Outcome :=
  execRead 2 (.imm b) (fun m s => compare s.cpu.a m s) s

/-- CMP zp, $C5 (41 R226). -/
def execCmpZp (b : Byte) (s : State) : Outcome :=
  execRead 3 (.mem (.zp b)) (fun m s => compare s.cpu.a m s) s

/-- CMP zpx, $D5 (41 R226). -/
def execCmpZpx (b : Byte) (s : State) : Outcome :=
  execRead 4 (.mem (.zpx b)) (fun m s => compare s.cpu.a m s) s

/-- CMP abs, $CD (41 R226). -/
def execCmpAbs (w : Word) (s : State) : Outcome :=
  execRead 4 (.mem (.abs w)) (fun m s => compare s.cpu.a m s) s

/-- CMP absx, $DD (41 R226). -/
def execCmpAbsx (w : Word) (s : State) : Outcome :=
  execRead 4 (.mem (.absx w)) (fun m s => compare s.cpu.a m s) s

/-- CMP absy, $D9 (41 R226). -/
def execCmpAbsy (w : Word) (s : State) : Outcome :=
  execRead 4 (.mem (.absy w)) (fun m s => compare s.cpu.a m s) s

/-- CMP indx, $C1 (41 R226). -/
def execCmpIndx (b : Byte) (s : State) : Outcome :=
  execRead 6 (.mem (.indx b)) (fun m s => compare s.cpu.a m s) s

/-- CMP indy, $D1 (41 R226). -/
def execCmpIndy (b : Byte) (s : State) : Outcome :=
  execRead 5 (.mem (.indy b)) (fun m s => compare s.cpu.a m s) s

/-- CPX imm, $E0 (41 R227). -/
def execCpxImm (b : Byte) (s : State) : Outcome :=
  execRead 2 (.imm b) (fun m s => compare s.cpu.x m s) s

/-- CPX zp, $E4 (41 R227). -/
def execCpxZp (b : Byte) (s : State) : Outcome :=
  execRead 3 (.mem (.zp b)) (fun m s => compare s.cpu.x m s) s

/-- CPX abs, $EC (41 R227). -/
def execCpxAbs (w : Word) (s : State) : Outcome :=
  execRead 4 (.mem (.abs w)) (fun m s => compare s.cpu.x m s) s

/-- CPY imm, $C0 (41 R228). -/
def execCpyImm (b : Byte) (s : State) : Outcome :=
  execRead 2 (.imm b) (fun m s => compare s.cpu.y m s) s

/-- CPY zp, $C4 (41 R228). -/
def execCpyZp (b : Byte) (s : State) : Outcome :=
  execRead 3 (.mem (.zp b)) (fun m s => compare s.cpu.y m s) s

/-- CPY abs, $CC (41 R228). -/
def execCpyAbs (w : Word) (s : State) : Outcome :=
  execRead 4 (.mem (.abs w)) (fun m s => compare s.cpu.y m s) s

/-- BIT zp, $24 (41 R229). -/
def execBitZp (b : Byte) (s : State) : Outcome :=
  execRead 3 (.mem (.zp b)) bitTest s

/-- BIT abs, $2C (41 R229). -/
def execBitAbs (w : Word) (s : State) : Outcome :=
  execRead 4 (.mem (.abs w)) bitTest s

/-- INC zp, $E6 (41 R230). -/
def execIncZp (b : Byte) (s : State) : Outcome :=
  execIncDec 5 (.zp b) (fun v => v + 1) s

/-- INC zpx, $F6 (41 R230). -/
def execIncZpx (b : Byte) (s : State) : Outcome :=
  execIncDec 6 (.zpx b) (fun v => v + 1) s

/-- INC abs, $EE (41 R230). -/
def execIncAbs (w : Word) (s : State) : Outcome :=
  execIncDec 6 (.abs w) (fun v => v + 1) s

/-- INC absx, $FE (41 R230). -/
def execIncAbsx (w : Word) (s : State) : Outcome :=
  execIncDec 7 (.absx w) (fun v => v + 1) s

/-- DEC zp, $C6 (41 R231). -/
def execDecZp (b : Byte) (s : State) : Outcome :=
  execIncDec 5 (.zp b) (fun v => v - 1) s

/-- DEC zpx, $D6 (41 R231). -/
def execDecZpx (b : Byte) (s : State) : Outcome :=
  execIncDec 6 (.zpx b) (fun v => v - 1) s

/-- DEC abs, $CE (41 R231). -/
def execDecAbs (w : Word) (s : State) : Outcome :=
  execIncDec 6 (.abs w) (fun v => v - 1) s

/-- DEC absx, $DE (41 R231). -/
def execDecAbsx (w : Word) (s : State) : Outcome :=
  execIncDec 7 (.absx w) (fun v => v - 1) s

/-- INX imp, $E8 (41 R232). -/
def execInx (s : State) : Outcome :=
  finish 2 (loadX (s.cpu.x + 1) s)

/-- INY imp, $C8 (41 R233). -/
def execIny (s : State) : Outcome :=
  finish 2 (loadY (s.cpu.y + 1) s)

/-- DEX imp, $CA (41 R234). -/
def execDex (s : State) : Outcome :=
  finish 2 (loadX (s.cpu.x - 1) s)

/-- DEY imp, $88 (41 R235). -/
def execDey (s : State) : Outcome :=
  finish 2 (loadY (s.cpu.y - 1) s)

end Sys2Proof.Machine
end

