-- ==== Sys2Proof/Machine/Control.lean ====
section
/-! DEFINITION. Jumps, calls and branches (44_control_transfer.md R270 to R281). PC is the address of the following instruction when a
meaning runs. -/

namespace Sys2Proof.Machine

/-- A branch's cost (30_encoding.md R172): 2 where not taken, 3 where taken, 4 where taken to another page. -/
def branchCost (taken crossed : Bool) : Nat := if taken then (if crossed then 4 else 3) else 2

/-- A conditional branch (R273): to the target where the condition holds, else to the following instruction. -/
def execBranch (cond : Bool) (d : Byte) (s : State) : Outcome :=
  let next := s.cpu.pc
  let target := branchTarget next d
  finish (branchCost cond (pageCrossed next target)) (s.setPc (if cond then target else next))

/-- JMP abs, $4C (44 R270). -/
def execJmpAbs (w : Word) (s : State) : Outcome :=
  finish 3 (s.setPc w)

/-- JMP ind, $6C (44 R270): the pointer's high byte from the same page (30 R147). -/
def execJmpInd (w : Word) (s : State) : Outcome :=
  finish 5 ((locate (.ind w) s).st.setPc (locate (.ind w) s).ea)

/-- JSR abs, $20 (44 R271): pushes the address of its last byte. -/
def execJsr (w : Word) (s : State) : Outcome :=
  finish 6 ((push16 (s.cpu.pc - 1) s).setPc w)

/-- RTS imp, $60 (44 R272): the pulled address plus 1. -/
def execRts (s : State) : Outcome :=
  finish 6 ((pull16 s).2.setPc ((pull16 s).1 + 1))

/-- BCC rel, $90 (44 R274). -/
def execBcc (d : Byte) (s : State) : Outcome :=
  execBranch (!s.cpu.c) d s

/-- BCS rel, $B0 (44 R275). -/
def execBcs (d : Byte) (s : State) : Outcome :=
  execBranch s.cpu.c d s

/-- BEQ rel, $F0 (44 R276). -/
def execBeq (d : Byte) (s : State) : Outcome :=
  execBranch s.cpu.z d s

/-- BNE rel, $D0 (44 R277). -/
def execBne (d : Byte) (s : State) : Outcome :=
  execBranch (!s.cpu.z) d s

/-- BMI rel, $30 (44 R278). -/
def execBmi (d : Byte) (s : State) : Outcome :=
  execBranch s.cpu.n d s

/-- BPL rel, $10 (44 R279). -/
def execBpl (d : Byte) (s : State) : Outcome :=
  execBranch (!s.cpu.n) d s

/-- BVC rel, $50 (44 R280). -/
def execBvc (d : Byte) (s : State) : Outcome :=
  execBranch (!s.cpu.v) d s

/-- BVS rel, $70 (44 R281). -/
def execBvs (d : Byte) (s : State) : Outcome :=
  execBranch s.cpu.v d s

end Sys2Proof.Machine
end

