-- ==== Sys2Proof/Machine/Shift.lean ====
section
/-! DEFINITION. Shifts and rotates (42_shift_rotate.md R250 to R253). -/

namespace Sys2Proof.Machine

/-- A shift or rotate of the accumulator (30_encoding.md R141, R151). -/
def execShiftAcc (c : Nat) (f : Byte → Bool → Shifted) (s : State) : Outcome :=
  let r := f s.cpu.a s.cpu.c
  finish c (((s.setC r.carry).setA r.result).setNZ r.result)

/-- A shift or rotate in memory (30 R151): one read, one write (20 R99). -/
def execShiftMem (c : Nat) (a : Addr) (f : Byte → Bool → Shifted) (s : State) : Outcome :=
  let l := locate a s
  let m := busRead l.ea l.st
  let r := f m.1 s.cpu.c
  finish c (((busWrite l.ea r.result m.2).setC r.carry).setNZ r.result)

/-- ASL acc, $0A (42 R250). -/
def execAslAcc (s : State) : Outcome :=
  execShiftAcc 2 aslOf s

/-- ASL zp, $06 (42 R250). -/
def execAslZp (b : Byte) (s : State) : Outcome :=
  execShiftMem 5 (.zp b) aslOf s

/-- ASL zpx, $16 (42 R250). -/
def execAslZpx (b : Byte) (s : State) : Outcome :=
  execShiftMem 6 (.zpx b) aslOf s

/-- ASL abs, $0E (42 R250). -/
def execAslAbs (w : Word) (s : State) : Outcome :=
  execShiftMem 6 (.abs w) aslOf s

/-- ASL absx, $1E (42 R250). -/
def execAslAbsx (w : Word) (s : State) : Outcome :=
  execShiftMem 7 (.absx w) aslOf s

/-- LSR acc, $4A (42 R251). -/
def execLsrAcc (s : State) : Outcome :=
  execShiftAcc 2 lsrOf s

/-- LSR zp, $46 (42 R251). -/
def execLsrZp (b : Byte) (s : State) : Outcome :=
  execShiftMem 5 (.zp b) lsrOf s

/-- LSR zpx, $56 (42 R251). -/
def execLsrZpx (b : Byte) (s : State) : Outcome :=
  execShiftMem 6 (.zpx b) lsrOf s

/-- LSR abs, $4E (42 R251). -/
def execLsrAbs (w : Word) (s : State) : Outcome :=
  execShiftMem 6 (.abs w) lsrOf s

/-- LSR absx, $5E (42 R251). -/
def execLsrAbsx (w : Word) (s : State) : Outcome :=
  execShiftMem 7 (.absx w) lsrOf s

/-- ROL acc, $2A (42 R252). -/
def execRolAcc (s : State) : Outcome :=
  execShiftAcc 2 rolOf s

/-- ROL zp, $26 (42 R252). -/
def execRolZp (b : Byte) (s : State) : Outcome :=
  execShiftMem 5 (.zp b) rolOf s

/-- ROL zpx, $36 (42 R252). -/
def execRolZpx (b : Byte) (s : State) : Outcome :=
  execShiftMem 6 (.zpx b) rolOf s

/-- ROL abs, $2E (42 R252). -/
def execRolAbs (w : Word) (s : State) : Outcome :=
  execShiftMem 6 (.abs w) rolOf s

/-- ROL absx, $3E (42 R252). -/
def execRolAbsx (w : Word) (s : State) : Outcome :=
  execShiftMem 7 (.absx w) rolOf s

/-- ROR acc, $6A (42 R253). -/
def execRorAcc (s : State) : Outcome :=
  execShiftAcc 2 rorOf s

/-- ROR zp, $66 (42 R253). -/
def execRorZp (b : Byte) (s : State) : Outcome :=
  execShiftMem 5 (.zp b) rorOf s

/-- ROR zpx, $76 (42 R253). -/
def execRorZpx (b : Byte) (s : State) : Outcome :=
  execShiftMem 6 (.zpx b) rorOf s

/-- ROR abs, $6E (42 R253). -/
def execRorAbs (w : Word) (s : State) : Outcome :=
  execShiftMem 6 (.abs w) rorOf s

/-- ROR absx, $7E (42 R253). -/
def execRorAbsx (w : Word) (s : State) : Outcome :=
  execShiftMem 7 (.absx w) rorOf s

end Sys2Proof.Machine
end

