-- ==== Sys2Proof/Machine/Stack.lean ====
section
/-! DEFINITION. Stack instructions (43_stack.md R263 to R266). -/

namespace Sys2Proof.Machine

/-- PHA imp, $48 (43 R263). -/
def execPha (s : State) : Outcome :=
  finish 3 (push s.cpu.a s)

/-- PHP imp, $08 (43 R264): the Break bit is 1, a software push. -/
def execPhp (s : State) : Outcome :=
  finish 3 (push (s.cpu.status true) s)

/-- PLA imp, $68 (43 R265). -/
def execPla (s : State) : Outcome :=
  finish 4 (loadA (pull s).1 (pull s).2)

/-- PLP imp, $28 (43 R266): bits 5 and 4 are discarded. -/
def execPlp (s : State) : Outcome :=
  finish 4 ((pull s).2.loadStatus (pull s).1)

end Sys2Proof.Machine
end

