-- ==== Sys2Proof/Machine/System.lean ====
section
/-! DEFINITION. Flag, no-operation and system instructions (45_flags_system.md R290 to R299). -/

namespace Sys2Proof.Machine

/-- CLC imp, $18 (45 R290). -/
def execClc (s : State) : Outcome :=
  finish 2 (s.setC false)

/-- SEC imp, $38 (45 R291). -/
def execSec (s : State) : Outcome :=
  finish 2 (s.setC true)

/-- CLI imp, $58 (45 R292). -/
def execCli (s : State) : Outcome :=
  finish 2 (s.setI false)

/-- SEI imp, $78 (45 R293). -/
def execSei (s : State) : Outcome :=
  finish 2 (s.setI true)

/-- CLD imp, $D8 (45 R294). -/
def execCld (s : State) : Outcome :=
  finish 2 (s.setD false)

/-- SED imp, $F8 (45 R295). -/
def execSed (s : State) : Outcome :=
  finish 2 (s.setD true)

/-- CLV imp, $B8 (45 R296). -/
def execClv (s : State) : Outcome :=
  finish 2 (s.setV false)

/-- NOP imp, $EA (45 R297): only PC advances, in the fetch. -/
def execNop (s : State) : Outcome :=
  finish 2 s

/-- BRK imp, $00 (45 R298): the byte after it is skipped, then the interrupt sequence (60 R409). -/
def execBrk (s : State) : Outcome :=
  takeInterrupt .brk (s.setPc (s.cpu.pc + 1))

/-- RTI imp, $40 (45 R299): status, then PC, no + 1. -/
def execRti (s : State) : Outcome :=
  finish 6 (returnFromInterrupt s)

end Sys2Proof.Machine
end

