-- ==== Sys2Proof/Machine/Dots.lean ====
section
/-! DEFINITION. The PPU's dot engine: one tick (61_ppu.md R550 to R580). -/

namespace Sys2Proof.Machine

/-- The rendering scanlines: 0-239 and 261 (R552). -/
def renderingLine (line : Nat) : Bool := line < 240 || line == 261

/-- The visible scanlines, which output pixels (R552). -/
def visibleLine (line : Nat) : Bool := line < 240

/-- The flag actions (R575, R577): vblank and NMI at 241/1, the three flags cleared at 261/1. -/
def flagActions (s : State) : State :=
  if s.ppu.scanline = 241 ∧ s.ppu.dot = 1 then
    (s.setPpu { s.ppu with vblank := true }).setNmi (s.cpu.nmiPending || bit s.ppu.ctrl 7)
  else if s.ppu.scanline = 261 ∧ s.ppu.dot = 1 then
    s.setPpu { s.ppu with vblank := false, sprite0Hit := false, spriteOverflow := false }
  else s

/-- Frame publication at dot 0 of scanline 240 (R570). -/
def publishFrame (p : Ppu) : Ppu :=
  if p.scanline = 240 ∧ p.dot = 0 then { p with publishedFrame := p.backFrame } else p

/-- The dots of the background shifts (R557). -/
def shiftDot (d : Nat) : Bool := (2 ≤ d && d ≤ 257) || (321 ≤ d && d ≤ 337)

/-- The dots of the background fetches (R553). -/
def fetchDot (d : Nat) : Bool := (1 ≤ d && d ≤ 256) || (321 ≤ d && d ≤ 336)

/-- One attribute bit filled over a byte (R558). -/
def fillByte (b : Bool) : Byte := if b then 0xFF else 0

/-- A shift register with its low byte reloaded (R558). -/
def reloadLow (reg : BitVec 16) (lo : Byte) : BitVec 16 := setBits 0x00FF#16 reg (lo.setWidth 16)

/-- The shift of the four background registers (R557). -/
def shiftBackground (p : Ppu) : Ppu :=
  { p with bgPatLo := p.bgPatLo <<< 1, bgPatHi := p.bgPatHi <<< 1, bgAtLo := p.bgAtLo <<< 1, bgAtHi := p.bgAtHi <<< 1 }

/-- The reload of their low bytes from the fetch latches (R558). -/
def reloadBackground (p : Ppu) : Ppu :=
  { p with
    bgPatLo := reloadLow p.bgPatLo p.patLoLatch
    bgPatHi := reloadLow p.bgPatHi p.patHiLatch
    bgAtLo := reloadLow p.bgAtLo (fillByte (bit p.atLatch 0))
    bgAtHi := reloadLow p.bgAtHi (fillByte (bit p.atLatch 1)) }

/-- Shift, then reload at every eighth of the shift dots (R557, R558), dot 321 among them. DEDUCED (log 19): R558 and R581 name
the reload at 321, the list in 90_conflicts.md C5 leaves it out. -/
def shiftAndReload (p : Ppu) : Ppu :=
  if shiftDot p.dot then
    if (p.dot - 1) % 8 = 0 then reloadBackground (shiftBackground p) else shiftBackground p
  else p

/-- A bit of a shift register as a number. -/
def regBit (reg : BitVec 16) (k : Nat) : Nat := if reg.getLsbD k then 1 else 0

/-- The background layer is shown at column `x` (R502, R566). -/
def backgroundShown (p : Ppu) (x : Nat) : Bool := bit p.mask 3 && (8 ≤ x || bit p.mask 1)

/-- The sprite layer is shown at column `x` (R502, R567). -/
def spritesShown (p : Ppu) (x : Nat) : Bool := bit p.mask 4 && (8 ≤ x || bit p.mask 2)

/-- The background pixel `bp` at column `x` (R566): 0 is transparent. -/
def backgroundPixel (p : Ppu) (x : Nat) : Nat :=
  if backgroundShown p x then
    regBit p.bgPatHi (15 - p.x.toNat) * 2 + regBit p.bgPatLo (15 - p.x.toNat)
  else 0

/-- The background palette `bpl` (R566). -/
def backgroundPalette (p : Ppu) : Nat :=
  regBit p.bgAtHi (15 - p.x.toNat) * 2 + regBit p.bgAtLo (15 - p.x.toNat)

/-- A sprite's pixel value at column `x`, 0 outside its 8 columns (R567). -/
def Sprite.pixel (d : Sprite) (x : Nat) : Nat :=
  let k := x - d.xpos.toNat
  if d.xpos.toNat ≤ x ∧ k < 8 then
    (if d.hi.getLsbD (7 - k) then 2 else 0) + (if d.lo.getLsbD (7 - k) then 1 else 0)
  else 0

/-- The first descriptor in list order with a nonzero pixel at `x` (R567). -/
def spriteAt (p : Ppu) (x : Nat) : Option Sprite :=
  if spritesShown p x then p.sprites.find? fun d => d.pixel x != 0 else none

/-- The palette address offset of a composed pixel (R568): 0 is the backdrop, `4*pl + px` an opaque layer's. -/
def composeOffset (bp bpl : Nat) (sp : Option Sprite) (x : Nat) : Nat :=
  match sp with
  | none => if bp = 0 then 0 else 4 * bpl + bp
  | some d =>
    let front := 4 * (4 + (d.attr.extractLsb' 0 2).toNat) + d.pixel x
    if bp = 0 ∨ !bit d.attr 5 then front else 4 * bpl + bp

/-- Sprite-0 hit at column `x` (R569): both layers opaque, the chosen sprite is OAM entry 0, and x is not 255. -/
def spriteZeroAt (bp : Nat) (sp : Option Sprite) (x : Nat) : Bool :=
  match sp with
  | none => false
  | some d => bp != 0 && d.id == 0 && x != 255

/-- Draw one pixel: the frame lists it once, indexes falling. -/
def framePut : Frame → Nat → Colour → Frame
  | [], i, c => [(i, c)]
  | (j, e) :: f, i, c =>
    if j < i then (i, c) :: (j, e) :: f
    else if j = i then (i, c) :: f
    else (j, e) :: framePut f i c

/-- The colour drawn for a pixel of a frame, `none` where it has not been drawn. -/
def frameGet : Frame → Nat → Option Colour
  | [], _ => none
  | (j, c) :: f, i => if j = i then some c else frameGet f i

/-- The colour index `c & $3F` that a palette read gives (R568). -/
def colourOf (b : Byte) : Colour := b.setWidth 6

/-- The pixel of the current dot (R566 to R569): the backdrop where rendering is disabled, else the composed pixel and the
sprite-0 hit. -/
def outputPixel (s : State) : State :=
  let p := s.ppu
  let x := p.dot - 1
  let at_ := p.scanline * 256 + x
  if p.renderingEnabled then
    let bp := backgroundPixel p x
    let sp := spriteAt p x
    let off := composeOffset bp (backgroundPalette p) sp x
    let c := colourOf (ppuRead s (BitVec.ofNat 14 (0x3F00 + off)))
    s.setPpu { p with
      backFrame := framePut p.backFrame at_ c
      sprite0Hit := p.sprite0Hit || spriteZeroAt bp sp x }
  else
    s.setPpu { p with backFrame := framePut p.backFrame at_ (colourOf (ppuRead s 0x3F00#14)) }

/-- The pixel step: dots 1-256 of the visible scanlines (R566). -/
def pixelStep (s : State) : State :=
  if visibleLine s.ppu.scanline && 1 ≤ s.ppu.dot && s.ppu.dot ≤ 256 then outputPixel s else s

/-- The coarse-X increment (R559). -/
def incCoarseX (v : VramAddr) : VramAddr :=
  if v &&& 0x001F#15 = 31 then (v &&& ~~~0x001F#15) ^^^ 0x0400#15 else v + 1

/-- The Y increment (R560): fine Y, then coarse Y, which wraps at row 29 with a flip of the vertical nametable, and at row 31
without. -/
def incY (v : VramAddr) : VramAddr :=
  if (v.extractLsb' 12 3).toNat < 7 then v + 0x1000#15
  else
    let u := v &&& ~~~0x7000#15
    if (v.extractLsb' 5 5).toNat = 29 then (u &&& ~~~0x03E0#15) ^^^ 0x0800#15
    else if (v.extractLsb' 5 5).toNat = 31 then u &&& ~~~0x03E0#15
    else u + 0x0020#15

/-- The horizontal copy (R561): coarse X and bit 10 from `t`. -/
def copyX (v t : VramAddr) : VramAddr := setBits 0x041F#15 v t

/-- The vertical copy (R562): fine Y, coarse Y and bit 11 from `t`. -/
def copyY (v t : VramAddr) : VramAddr := setBits 0x7BE0#15 v t

/-- The nametable fetch address (R553). -/
def nametableAddr (v : VramAddr) : PpuAddr := 0x2000#14 ||| (v.setWidth 14 &&& 0x0FFF#14)

/-- The attribute fetch address (R554). -/
def attributeAddr (v : VramAddr) : PpuAddr :=
  0x23C0#14 ||| (v.setWidth 14 &&& 0x0C00#14) ||| ((v >>> 4).setWidth 14 &&& 0x38#14) ||| ((v >>> 2).setWidth 14 &&& 0x07#14)

/-- The 2-bit palette of the tile's quadrant in an attribute byte (R554). -/
def attributeBits (v : VramAddr) (b : Byte) : BitVec 2 :=
  (b >>> (((v >>> 4) &&& 4#15) ||| (v &&& 2#15)).toNat).setWidth 2

/-- The pattern fetch address of plane `plane` (R553). -/
def patternAddr (p : Ppu) (plane : Nat) : PpuAddr :=
  BitVec.ofNat 14 ((if bit p.ctrl 4 then 0x1000 else 0) + 16 * p.ntLatch.toNat + (p.v.extractLsb' 12 3).toNat + 8 * plane)

/-- The background fetch of the current dot and, after its fourth fetch, the coarse-X increment (R553, R554, R559). -/
def backgroundFetch (s : State) : State :=
  let p := s.ppu
  if fetchDot p.dot then
    match (p.dot - 1) % 8 with
    | 1 => s.setPpu { p with ntLatch := ppuRead s (nametableAddr p.v) }
    | 3 => s.setPpu { p with atLatch := attributeBits p.v (ppuRead s (attributeAddr p.v)) }
    | 5 => s.setPpu { p with patLoLatch := ppuRead s (patternAddr p 0) }
    | 7 => s.setPpu { p with patHiLatch := ppuRead s (patternAddr p 1), v := incCoarseX p.v }
    | _ => s
  else s

/-- The Y increment and the two copies at their dots (R560 to R562). -/
def scrollActions (p : Ppu) : Ppu :=
  let v := if p.dot = 256 then incY p.v else p.v
  let v := if p.dot = 257 then copyX v p.t else v
  let v := if p.scanline = 261 ∧ 280 ≤ p.dot ∧ p.dot ≤ 304 then copyY v p.t else v
  { p with v := v }

/-- A sprite's height (R501, R564). -/
def Ppu.spriteHeight (p : Ppu) : Nat := if bit p.ctrl 5 then 16 else 8

/-- OAM entry `n` (R506). -/
def oamEntry (s : State) (n : Nat) : OamEntry where
  n := n
  y := s.cell .oam (4 * n)
  tile := s.cell .oam (4 * n + 1)
  attr := s.cell .oam (4 * n + 2)
  xpos := s.cell .oam (4 * n + 3)

/-- The OAM entries in range of a line, in index order: `0 <= L - y < h` (R564). -/
def spritesInRange (s : State) : List OamEntry :=
  ((List.range 64).map (oamEntry s)).filter fun e =>
    e.y.toNat ≤ s.ppu.scanline && s.ppu.scanline - e.y.toNat < s.ppu.spriteHeight

/-- Sprite evaluation (R564): the first eight in range; the overflow flag is set where a ninth is. -/
def evaluateSprites (s : State) : State :=
  s.setPpu { s.ppu with
    secondary := (spritesInRange s).take 8
    spriteOverflow := s.ppu.spriteOverflow || 8 < (spritesInRange s).length }

/-- The pattern row of a sprite on line `line` (R565): the rule's integer, `L - y`, flipped where `attr[7]` is set. It is in
0..h-1 for an entry evaluated on the same line with the same sprite height. DEDUCED (log 13): for an entry kept from another
line, and where `ctrl[5]` is written between the evaluation at dot 257 and the fetch at dot 321 (`h` is the height at 321),
the rule's arithmetic is taken as it stands, on integers. -/
def spriteRow (line h : Nat) (e : OamEntry) : Int :=
  let row : Int := (line : Int) - (e.y.toNat : Int)
  if bit e.attr 7 then (h : Int) - 1 - row else row

/-- The pattern address of a sprite's row, plane 0 (R565), on the 14-bit PPU bus. -/
def spritePatternAddr (p : Ppu) (e : OamEntry) : PpuAddr :=
  let row := spriteRow p.scanline p.spriteHeight e
  if bit p.ctrl 5 then
    let t0 : Int := ((e.tile &&& 0xFE).toNat : Int)
    let table : Int := if bit e.tile 0 then 0x1000 else 0
    if 8 ≤ row then BitVec.ofInt 14 (table + 16 * (t0 + 1) + (row - 8)) else BitVec.ofInt 14 (table + 16 * t0 + row)
  else
    BitVec.ofInt 14 ((if bit p.ctrl 3 then 0x1000 else 0) + 16 * (e.tile.toNat : Int) + row)

/-- The descriptor of one evaluated sprite (R565): the two planes, reversed where `attr[6]` is set. -/
def fetchSprite (s : State) (e : OamEntry) : Sprite :=
  let a := spritePatternAddr s.ppu e
  let lo := ppuRead s a
  let hi := ppuRead s (a + 8)
  { id := e.n
    xpos := e.xpos
    attr := e.attr
    lo := if bit e.attr 6 then reverse8 lo else lo
    hi := if bit e.attr 6 then reverse8 hi else hi }

/-- The sprite actions at their dots (R563 to R565). -/
def spriteActions (s : State) : State :=
  if s.ppu.dot = 1 then s.setPpu { s.ppu with secondary := [] }
  else if s.ppu.dot = 257 ∧ visibleLine s.ppu.scanline then evaluateSprites s
  else if s.ppu.dot = 321 then s.setPpu { s.ppu with sprites := s.ppu.secondary.map (fetchSprite s) }
  else s

/-- The mapper's scanline hook at dot 260 (R571). -/
def scanlineHook (s : State) : State := if s.ppu.dot = 260 then onScanline s else s

/-- The actions of a rendering scanline with rendering enabled, in R580's order. -/
def renderActions (s : State) : State :=
  let s := s.setPpu (shiftAndReload s.ppu)
  let s := pixelStep s
  let s := backgroundFetch s
  let s := s.setPpu (scrollActions s.ppu)
  let s := spriteActions s
  scanlineHook s

/-- The counter advance (R550), with the odd-frame skip (R551). -/
def advanceDot (p : Ppu) : Ppu :=
  if p.scanline = 261 ∧ p.dot = 339 ∧ p.oddFrame ∧ p.renderingEnabled then
    { p with scanline := 0, dot := 0, oddFrame := !p.oddFrame }
  else if p.dot + 1 ≤ 340 then { p with dot := p.dot + 1 }
  else if p.scanline + 1 ≤ 261 then { p with dot := 0, scanline := p.scanline + 1 }
  else { p with dot := 0, scanline := 0, oddFrame := !p.oddFrame }

/-- The actions of one dot (R580): flags, publication, then rendering, or the backdrop pixel where it is disabled. -/
def dotActions (s : State) : State :=
  let s := flagActions s
  let s := s.setPpu (publishFrame s.ppu)
  if renderingLine s.ppu.scanline && s.ppu.renderingEnabled then renderActions s else pixelStep s

/-- One PPU tick (R550, R580): the dot's actions, then the counter advance. -/
def ppuTick (s : State) : State :=
  let s := dotActions s
  s.setPpu (advanceDot s.ppu)

/-- The RGB of pixel `i` of the published frame (R568, R570): the table applied to the colour index; a pixel never drawn is
unspecified (log 4). -/
def State.publishedPixel (s : State) (i : Nat) : BitVec 24 :=
  match frameGet s.ppu.publishedFrame i with
  | some c => Config.nesPaletteRGB c
  | none => Config.initFrame i

end Sys2Proof.Machine
end

