-- ==== Sys2Proof/Machine/Reset.lean ====
section
/-! DEFINITION. Hard and soft reset and the power-on of a launch (70_reset_and_hazards.md R700 to R705). -/

namespace Sys2Proof.Machine

/-- The reset sequence (R703): `Interrupt(Reset)`, or the entry override in place of the vector read (R702). The open-bus
latch keeps its value across a reset that completes (20_memory.md R82; log 7). DESIGN CHOICE (log 7): where the vector reads
$FFFF the reset does not complete, and the fault's state holds the latch as the vector read left it (60_exceptions.md
R421). -/
def resetSequence (s : State) : Outcome :=
  match s.launch.entryOverride with
  | some e => .next (((s.setI true).setPc e).setSleep 6)
  | none =>
    match takeInterrupt .reset s with
    | .next t => .next (t.setBusLatch s.busLatch)
    | .fault f => .fault f
    | .refused r => .refused r

/-- The PPU reset of both resets (R704): registers, latches and counters to 0, the sprite lists empty; memories and frames
kept. -/
def Ppu.reset (p : Ppu) : Ppu :=
  { Ppu.powerOn with
    oam := p.oam
    vram := p.vram
    palette := p.palette
    backFrame := p.backFrame
    publishedFrame := p.publishedFrame }

/-- Everything R700 sets, before the reset sequence: the machine of a launch at power-on. The reset sequence then sets PC and
sleep (R703). DESIGN CHOICE (log 21): until it has, PC is 0 and sleep is 6, and a power-on whose vector reads $FFFF leaves
them so in its fault's state; the spec gives neither a value there. -/
def powerOnState (l : Launch) : State where
  cpu := Cpu.afterReset 0
  ram := []
  busLatch := Config.initOpenBus
  ppu := Ppu.powerOn
  mapper := mapperPowerOn l.cart
  launch := l
  hostRequest := none
  shutdown := false
  faults := []
  stopped := false

/-- Hard reset as power-on (R700, and R705's column 'hard reset'): the launch's machine anew, every memory at `InitMem`, the
mapper as constructed (62_mappers_cartridge.md R604, R610); only the host's shutdown flag is kept (log 9, log 10). -/
def powerCycle (s : State) : Outcome := resetSequence { powerOnState s.launch with shutdown := s.shutdown }

/-- Hard reset of the running machine (log 9): the processor and internal RAM as R700 says; the mapper whole, PRG-RAM and
CHR-RAM with it, kept (62_mappers_cartridge.md R610, R614); the PPU reset with its memories and frames kept (R704); the
open-bus latch kept (20_memory.md R82). The vector is read through the current banks (R703). DEDUCED (log 21): PC and sleep
keep their values until that read, so that a vector of $FFFF leaves both as they were (60_exceptions.md R421). -/
def hardReset (s : State) : Outcome :=
  resetSequence
    { s with
      cpu := { Cpu.afterReset s.cpu.pc with sleep := s.cpu.sleep }
      ram := []
      ppu := s.ppu.reset
      hostRequest := none
      stopped := false }

/-- Soft reset (R701): S minus 3 with nothing written to the stack, I set, the NMI latch cleared, the PPU reset; all else
kept, `irqPending` and `unsupportedSeen` among it (log 8); a stopped clock runs again (R721). DEDUCED (log 21): a vector of
$FFFF leaves PC and sleep as they were (60_exceptions.md R421). -/
def softReset (s : State) : Outcome :=
  resetSequence
    { s with
      cpu := { s.cpu with s := s.cpu.s - 3, i := true, nmiPending := false }
      ppu := s.ppu.reset
      hostRequest := none
      stopped := false }

end Sys2Proof.Machine
end

