-- ==== Sys2Proof/Machine/Clock.lean ====
section
/-! DEFINITION. Fetch, the processor step (60_exceptions.md R400 to R408), the system tick (70_reset_and_hazards.md R720 to
R722) and the host's requests (60 R450). -/

namespace Sys2Proof.Machine

/-- The opcode fetch (60 R406): the byte at PC, and PC plus 1. -/
def fetchOpcode (s : State) : Byte × State :=
  let r := busRead s.cpu.pc s
  (r.1, r.2.setPc (s.cpu.pc + 1))

/-- A fetched instruction, its operand bytes, and the state after the fetch. -/
structure FetchedInstr where
  instr : Instr
  bytes : List Byte
  st    : State

/-- The operand fetch of a format (30_encoding.md R138): nothing, one byte read, or one word read, PC past it. -/
def fetchOperand (f : Form) (s : State) : Except Fault FetchedInstr :=
  match f with
  | .f1 i => .ok ⟨i, [], s⟩
  | .f2 k =>
    let r := busRead s.cpu.pc s
    .ok ⟨k r.1, [r.1], r.2.setPc (s.cpu.pc + 1)⟩
  | .f3 k =>
    match readWord s.cpu.pc s with
    | .error e => .error e
    | .ok (w, t) => .ok ⟨k w, [loByte w, hiByte w], t.setPc (s.cpu.pc + 2)⟩

/-- An unregistered opcode (60 R407, R408): the record under either policy, then a NOP of 2 cycles, or the step's failure. -/
def unregistered (op : Byte) (a : Word) (s : State) : Outcome :=
  let t := s.setUnsupported (some ⟨op, a⟩)
  if s.launch.strictOpcodes then .fault (.invalidOpcode op a t) else .next (t.setSleep 1)

/-- Record the trace snapshot of a completed instruction (10_state.md R44). -/
def recordTrace (t : Trace) : Outcome → Outcome
  | .next s => .next (s.setTrace (some t))
  | .fault f => .fault f
  | .refused r => .refused r

/-- The trace snapshot of an instruction fetched at `a`. -/
def traceOf (a : Word) (op : Byte) (f : FetchedInstr) : Trace where
  addr := a
  opcode := op
  operands := f.bytes
  mode := f.instr.operand.mode
  ea := effectiveAddress f.instr.operand f.st

/-- Fetch and dispatch (60 R406). -/
def fetchExecute (s : State) : Outcome :=
  let op := fetchOpcode s
  match formOf op.1 with
  | none => unregistered op.1 s.cpu.pc op.2
  | some form =>
    match fetchOperand form op.2 with
    | .error e => .fault e
    | .ok f => recordTrace (traceOf s.cpu.pc op.1 f) (exec f.instr f.st)

/-- The processor step (60 R401 to R406): sleep, or NMI, or IRQ, or one instruction. -/
def cpuStep (s : State) : Outcome :=
  if 0 < s.cpu.sleep then .next (s.setSleep (s.cpu.sleep - 1))
  else if s.cpu.nmiPending then takeInterrupt .nmi (s.setNmi false)
  else if s.cpu.irqPending && !s.cpu.i then takeInterrupt .irq s
  else fetchExecute s

/-- The three PPU ticks of a system tick (70 R720). -/
def threeDots (s : State) : State := ppuTick (ppuTick (ppuTick s))

/-- One system tick (70 R720): three PPU ticks, then one processor step. -/
def systemTick (s : State) : Outcome := cpuStep (threeDots s)

/-- One move of the machine before its outcome is handled (log 10): a reset the host has asked for, between ticks; else
nothing where the shutdown flag is set (70 R722) or a fatal condition has stopped the clock (70 R721); else one system
tick. -/
def machineMove (s : State) : Outcome :=
  match s.hostRequest with
  | some .powerOn => powerCycle s
  | some .hardReset => hardReset s
  | some .softReset => softReset s
  | none => if s.shutdown || s.stopped then .next s else systemTick s

/-- A fault of a step recorded in the state it leaves (60 R408, R421; 70 R721). -/
def noted : Fault → Fault
  | .invalidOpcode op a t => .invalidOpcode op a (t.noteFault (.invalidOpcode op a))
  | .badVector v t => .badVector v (t.noteFault (.badVector v))
  | .portWordRead a t => .portWordRead a (t.noteFault (.portWordRead a))
  | .loadUnsupportedMapper n => .loadUnsupportedMapper n
  | .loadMalformedRom => .loadMalformedRom

/-- The clock's handling of an outcome (70 R721): a failure is reported to the host and kept in the state, from which the run
goes on as the host decides; a fatal condition has stopped the clock there. -/
def handleOutcome : Outcome → Outcome
  | .next s => .next s
  | .fault f => .fault (noted f)
  | .refused r => .refused r

/-- One move of the machine, its outcome handled. -/
def machineStep (s : State) : Outcome := handleOutcome (machineMove s)

/-- The machine of a launch after its first hard reset (70 R700, R711), its outcome handled as a step's is: a vector that reads
$FFFF is on record and has stopped the clock (60 R421; 70 R721). -/
def powerOn (l : Launch) : Outcome := handleOutcome (resetSequence (powerOnState l))

/-- The state a fault of a step leaves, from which the host may step on (70 R721); a load's failure leaves none. -/
def Fault.after : Fault → Option State
  | .invalidOpcode _ _ t => some t
  | .badVector _ t => some t
  | .portWordRead _ t => some t
  | .loadUnsupportedMapper _ => none
  | .loadMalformedRom => none

/-- The memory cell that an instruction byte at `a` is fetched from, `none` for a port or open bus. -/
def fetchCell (s : State) (a : Word) : Option (Region × Nat) :=
  match busSelect s a with
  | .window w => some (w.region, w.cellIndex a.toNat)
  | .port _ => none
  | .openBus => none

/-- Put a byte where it is fetched from. -/
def placeByte (a : Word) (b : Byte) (s : State) : State :=
  match fetchCell s a with
  | some (r, i) => s.setCell r i b
  | none => s

/-- Three bytes at PC can be fetched from memory. -/
def fetchable (s : State) : Bool :=
  (fetchCell s s.cpu.pc).isSome && (fetchCell s (s.cpu.pc + 1)).isSome && (fetchCell s (s.cpu.pc + 2)).isSome

/-- Nothing stands before the next fetch (log 12): no request, no shutdown, no stopped clock, no sleep, no interrupt latched, and none that the
three dots before the fetch would latch (their place in the line is moved to dot 3 where they would). -/
def readyToFetch (s : State) : State :=
  let s := { s with
    hostRequest := none
    shutdown := false
    stopped := false
    cpu := { s.cpu with sleep := 0, nmiPending := false, irqPending := s.cpu.irqPending && s.cpu.i } }
  let t := threeDots s
  if t.cpu.nmiPending || (t.cpu.irqPending && !t.cpu.i) then s.setPpu { s.ppu with dot := 3 } else s

/-- The state with these three bytes where the very next step fetches (log 12); PC moves to $0200 only where no memory
answers at PC. -/
def placeInstruction (b0 b1 b2 : Byte) (s : State) : State :=
  let s := readyToFetch s
  let s := if fetchable s then s else s.setPc 0x0200
  placeByte (s.cpu.pc + 2) b2 (placeByte (s.cpu.pc + 1) b1 (placeByte s.cpu.pc b0 s))

end Sys2Proof.Machine
end

