-- ==== Sys2Proof/Machine/Step.lean ====
section
/-! DEFINITION. The machine's step, and the placing of one instruction where it fetches. -/

namespace Sys2Proof.Machine

/-- One move of the machine: a host reset or one system tick (70_reset_and_hazards.md R720 to R722; log 10). -/
def step (s : State) : Host.Outcome State Fault Refusal := machineStep s

/-- `s` with the instruction whose bits are `w` (numbered as spec/opcode_table.json numbers them) where `step` fetches next
(log 12). -/
def State.withFetchWord (s : State) (nbits w : Nat) : State :=
  match tableBytes nbits w with
  | [b0, b1, b2] => placeInstruction b0 b1 b2 s
  | _ => s

end Sys2Proof.Machine
end

