-- ==== Sys2Proof/Safety.lean ====
section
/-! DEFINITION. What the claims use: the invariants of the machine and the end of a run. -/

namespace Sys2Proof.Safety

open Sys2Proof.Machine

/-- The palette's entries are 6 bits wide (61_ppu.md R542). -/
def paletteSix (m : Mem) : Bool := m.all fun c => c.2.toNat < 64

/-- A frame's pixels: indexes below 256 × 240, strictly falling from below `hi` (61 R570). -/
def frameWf : Nat → Frame → Bool
  | _, [] => true
  | hi, (j, _) :: f => j < hi && frameWf j f

/-- The mapper's variant is the one the cartridge's number selects (62_mappers_cartridge.md R602). -/
def variantMatches (n : Byte) : MapperRegs → Bool
  | .nrom => n != 1 && n != 4
  | .mmc1 _ => n == 1
  | .mmc3 _ => n == 4

/-- The serial counter of the shift-register variant is 0..4 (62 R630). -/
def serialCountOk : MapperRegs → Bool
  | .mmc1 m => m.count ≤ 4
  | .nrom => true
  | .mmc3 _ => true

/-- Every memory is in its canonical form, palette entries are 6 bits, and both frames list pixels of the frame once. -/
def memoriesOk (s : State) : Bool :=
  s.memWf && paletteSix s.ppu.palette && frameWf 61440 s.ppu.backFrame && frameWf 61440 s.ppu.publishedFrame

/-- The counters stay in the ranges the spec gives them: sleep (10_state.md R40), scanline and dot (61 R500), the two sprite
lists (61 R500), the serial counter (62 R630); and the mapper's variant is the cartridge's (62 R602). -/
def countersOk (s : State) : Bool :=
  s.cpu.sleep ≤ 6 && s.ppu.scanline ≤ 261 && s.ppu.dot ≤ 340 && s.ppu.secondary.length ≤ 8 &&
  s.ppu.sprites.length ≤ 8 && serialCountOk s.mapper.regs && variantMatches s.launch.cart.mapperNumber s.mapper.regs

/-- The end of a run in a self-loop at `loop` (60_exceptions.md R451): PC there, not sleeping, both latches clear, and no fault
of the run recorded nor the clock stopped, since a faulted state is never a final one (R408, R421). DESIGN CHOICE (log 22): it
is tested of the state between two ticks, before the three PPU dots of the tick; R451 speaks of a step, which R720 puts after
them. -/
def atLoopEnd (loop : Word) (s : State) : Bool :=
  s.cpu.pc == loop && s.cpu.sleep == 0 && !s.cpu.nmiPending && !s.cpu.irqPending && s.faults.isEmpty && !s.stopped

end Sys2Proof.Safety
end

