-- ==== Sys2Proof/Certificates/Slice0/Obligations.lean ====
section
/-! DEFINITION. The statements for the provers, each a Prop. A meaning runs after its instruction has been fetched
(30_encoding.md R138), so `s.cpu.pc` is the address of the following instruction in every statement about `exec`. -/

namespace Sys2Proof.Claims

open Sys2Proof.Machine

/-- A row of 30_encoding.md R170 for an instruction that reads an operand byte: opcode, where the byte comes from, the
instruction, base cost. -/
structure ReadRow where
  op    : Byte
  src   : Source
  instr : Instr
  cost  : Nat

/-- A row of R170 for an instruction that writes memory: opcode, addressing mode, the instruction, cost. -/
structure AddrRow where
  op    : Byte
  addr  : Addr
  instr : Instr
  cost  : Nat

/-- A row for a branch: opcode, the instruction, its condition. -/
structure BranchRow where
  op    : Byte
  instr : Instr
  taken : Bool

/-- A row for an instruction without operand byte: opcode, the instruction, the processor after it but for `sleep`, cost. -/
structure CpuRow where
  op    : Byte
  instr : Instr
  cpu   : Cpu
  cost  : Nat

/-- `SetNZ(v)` (10_state.md R45). -/
def setNZ (v : Byte) (c : Cpu) : Cpu := { c with n := v.getLsbD 7, z := v == 0 }

/-- What a bus read may change, ports included: `u` is `s` but for the PPU's registers and the open-bus latch, and every
byte of every memory reads as before. -/
def ReadOnly (s u : State) : Prop :=
  (∃ ppu latch, u = { s with ppu := ppu, busLatch := latch }) ∧ ∀ q i, u.cell q i = s.cell q i

/-- Each of the rows completes for every operand and in every state: it has its opcode byte and operand, and its next state is the
state after the operand read with `effect` of the operand byte on the processor and the row's cost; nothing else
changes. -/
def ReadsComplete (rows : Byte → Word → List ReadRow) (effect : Byte → Cpu → Cpu) : Prop :=
  ∀ (b : Byte) (w : Word) (s : State), ∀ r ∈ rows b w,
    r.instr.opcode = r.op ∧ r.instr.operand = .src r.src ∧ ReadOnly s (readSource r.src s).st ∧
    exec r.instr s = .next { (readSource r.src s).st with
      cpu := { effect (readSource r.src s).value s.cpu with
        sleep := r.cost + (if (readSource r.src s).crossed then 1 else 0) - 1 } }

/-- Every memory byte of `t` reads as in `u`, but the byte that a write of `v` to `ea` in state `u` stores to, which holds
`v` (a palette entry its low 6 bits). -/
def Stored (u : State) (ea : Word) (v : Byte) (t : State) : Prop :=
  (∀ q i, storedCell u ea = some (q, i) → t.cell q i = if q = .palette then v &&& 0x3F else v) ∧
  (∀ q i, storedCell u ea ≠ some (q, i) → t.cell q i = u.cell q i)

/-- What a write of `v` to `ea` in state `u` leaves alone beside memory: the PPU and the NMI latch unless `ea` is a port,
the mapper's registers and the IRQ latch unless `ea` is in $8000-$FFFF, and always the registers, flags and other
processor state, the launch, the host's flags and the clock's record of faults. -/
def WriteFrame (u : State) (ea : Word) (v : Byte) (t : State) : Prop :=
  t.busLatch = v ∧
  t.cpu = { u.cpu with nmiPending := t.cpu.nmiPending, irqPending := t.cpu.irqPending } ∧
  (isPort ea = false → t.cpu.nmiPending = u.cpu.nmiPending ∧ t.ppu = u.ppu) ∧
  (ea.toNat < 0x8000 → t.cpu.irqPending = u.cpu.irqPending ∧ t.mapper.regs = u.mapper.regs) ∧
  t.launch = u.launch ∧ t.hostRequest = u.hostRequest ∧ t.shutdown = u.shutdown ∧ t.faults = u.faults ∧
  t.stopped = u.stopped

/-- The state in which a read-modify-write writes: after its read at the effective address. -/
def afterRead (a : Addr) (s : State) : State := (busRead (locate a s).ea (locate a s).st).2

/-- The byte that a read-modify-write reads. -/
def operandAt (a : Addr) (s : State) : Byte := (busRead (locate a s).ea (locate a s).st).1

/-- Each of the rows completes: one read and one write at the effective address, then `effect` of the byte written on
the processor and the row's cost, whatever page the address is in; nothing else changes. -/
def ModifiesComplete (rows : Byte → Word → List AddrRow) (result : Byte → Cpu → Byte) (effect : Byte → Cpu → Cpu) :
    Prop :=
  ∀ (b : Byte) (w : Word) (s : State), ∀ r ∈ rows b w,
    let ea := (locate r.addr s).ea
    let u := afterRead r.addr s
    let v := result (operandAt r.addr s) s.cpu
    r.instr.opcode = r.op ∧ r.instr.operand = .src (.mem r.addr) ∧
    ReadOnly s u ∧ Stored u ea v (busWrite ea v u) ∧ WriteFrame u ea v (busWrite ea v u) ∧
    exec r.instr s = .next { busWrite ea v u with
      cpu := { effect (operandAt r.addr s) (busWrite ea v u).cpu with sleep := r.cost - 1 } }

/-- A register-only instruction completes: its opcode byte and operand (none, or A), and a next state that differs from `s` in
the processor alone. -/
def CpuCompletes (s : State) (operand : Operand) (rows : List CpuRow) : Prop :=
  ∀ r ∈ rows, r.instr.opcode = r.op ∧ r.instr.operand = operand ∧ exec r.instr s = .next { s with cpu := { r.cpu with sleep := r.cost - 1 } }

/-- Every byte of every memory of `t` reads as in `s`, but those of internal RAM at the listed places. -/
def OnlyRam (s t : State) (places : List Nat) : Prop :=
  ∀ q i, ¬ (q = .ram ∧ i ∈ places) → t.cell q i = s.cell q i

/-- The RAM place of the stack byte at `sp` (43_stack.md R260). -/
def stackPlace (sp : Byte) : Nat := 0x100 + sp.toNat

/-- LDA (30_encoding.md R161, R170). -/
def ldaRows (b : Byte) (w : Word) : List ReadRow :=
  [⟨0xA9, (.imm b), .ldaImm b, 2⟩, ⟨0xA5, (.mem (.zp b)), .ldaZp b, 3⟩, ⟨0xB5, (.mem (.zpx b)), .ldaZpx b, 4⟩,
   ⟨0xAD, (.mem (.abs w)), .ldaAbs w, 4⟩, ⟨0xBD, (.mem (.absx w)), .ldaAbsx w, 4⟩,
   ⟨0xB9, (.mem (.absy w)), .ldaAbsy w, 4⟩, ⟨0xA1, (.mem (.indx b)), .ldaIndx b, 6⟩,
   ⟨0xB1, (.mem (.indy b)), .ldaIndy b, 5⟩]

/-- LDX (30_encoding.md R161, R170). -/
def ldxRows (b : Byte) (w : Word) : List ReadRow :=
  [⟨0xA2, (.imm b), .ldxImm b, 2⟩, ⟨0xA6, (.mem (.zp b)), .ldxZp b, 3⟩, ⟨0xB6, (.mem (.zpy b)), .ldxZpy b, 4⟩,
   ⟨0xAE, (.mem (.abs w)), .ldxAbs w, 4⟩, ⟨0xBE, (.mem (.absy w)), .ldxAbsy w, 4⟩]

/-- LDY (30_encoding.md R161, R170). -/
def ldyRows (b : Byte) (w : Word) : List ReadRow :=
  [⟨0xA0, (.imm b), .ldyImm b, 2⟩, ⟨0xA4, (.mem (.zp b)), .ldyZp b, 3⟩, ⟨0xB4, (.mem (.zpx b)), .ldyZpx b, 4⟩,
   ⟨0xAC, (.mem (.abs w)), .ldyAbs w, 4⟩, ⟨0xBC, (.mem (.absx w)), .ldyAbsx w, 4⟩]

/-- ADC (30_encoding.md R161, R170). -/
def adcRows (b : Byte) (w : Word) : List ReadRow :=
  [⟨0x69, (.imm b), .adcImm b, 2⟩, ⟨0x65, (.mem (.zp b)), .adcZp b, 3⟩, ⟨0x75, (.mem (.zpx b)), .adcZpx b, 4⟩,
   ⟨0x6D, (.mem (.abs w)), .adcAbs w, 4⟩, ⟨0x7D, (.mem (.absx w)), .adcAbsx w, 4⟩,
   ⟨0x79, (.mem (.absy w)), .adcAbsy w, 4⟩, ⟨0x61, (.mem (.indx b)), .adcIndx b, 6⟩,
   ⟨0x71, (.mem (.indy b)), .adcIndy b, 5⟩]

/-- SBC (30_encoding.md R161, R170). -/
def sbcRows (b : Byte) (w : Word) : List ReadRow :=
  [⟨0xE9, (.imm b), .sbcImm b, 2⟩, ⟨0xE5, (.mem (.zp b)), .sbcZp b, 3⟩, ⟨0xF5, (.mem (.zpx b)), .sbcZpx b, 4⟩,
   ⟨0xED, (.mem (.abs w)), .sbcAbs w, 4⟩, ⟨0xFD, (.mem (.absx w)), .sbcAbsx w, 4⟩,
   ⟨0xF9, (.mem (.absy w)), .sbcAbsy w, 4⟩, ⟨0xE1, (.mem (.indx b)), .sbcIndx b, 6⟩,
   ⟨0xF1, (.mem (.indy b)), .sbcIndy b, 5⟩]

/-- AND (30_encoding.md R161, R170). -/
def andRows (b : Byte) (w : Word) : List ReadRow :=
  [⟨0x29, (.imm b), .andImm b, 2⟩, ⟨0x25, (.mem (.zp b)), .andZp b, 3⟩, ⟨0x35, (.mem (.zpx b)), .andZpx b, 4⟩,
   ⟨0x2D, (.mem (.abs w)), .andAbs w, 4⟩, ⟨0x3D, (.mem (.absx w)), .andAbsx w, 4⟩,
   ⟨0x39, (.mem (.absy w)), .andAbsy w, 4⟩, ⟨0x21, (.mem (.indx b)), .andIndx b, 6⟩,
   ⟨0x31, (.mem (.indy b)), .andIndy b, 5⟩]

/-- ORA (30_encoding.md R161, R170). -/
def oraRows (b : Byte) (w : Word) : List ReadRow :=
  [⟨0x09, (.imm b), .oraImm b, 2⟩, ⟨0x05, (.mem (.zp b)), .oraZp b, 3⟩, ⟨0x15, (.mem (.zpx b)), .oraZpx b, 4⟩,
   ⟨0x0D, (.mem (.abs w)), .oraAbs w, 4⟩, ⟨0x1D, (.mem (.absx w)), .oraAbsx w, 4⟩,
   ⟨0x19, (.mem (.absy w)), .oraAbsy w, 4⟩, ⟨0x01, (.mem (.indx b)), .oraIndx b, 6⟩,
   ⟨0x11, (.mem (.indy b)), .oraIndy b, 5⟩]

/-- EOR (30_encoding.md R161, R170). -/
def eorRows (b : Byte) (w : Word) : List ReadRow :=
  [⟨0x49, (.imm b), .eorImm b, 2⟩, ⟨0x45, (.mem (.zp b)), .eorZp b, 3⟩, ⟨0x55, (.mem (.zpx b)), .eorZpx b, 4⟩,
   ⟨0x4D, (.mem (.abs w)), .eorAbs w, 4⟩, ⟨0x5D, (.mem (.absx w)), .eorAbsx w, 4⟩,
   ⟨0x59, (.mem (.absy w)), .eorAbsy w, 4⟩, ⟨0x41, (.mem (.indx b)), .eorIndx b, 6⟩,
   ⟨0x51, (.mem (.indy b)), .eorIndy b, 5⟩]

/-- CMP (30_encoding.md R161, R170). -/
def cmpRows (b : Byte) (w : Word) : List ReadRow :=
  [⟨0xC9, (.imm b), .cmpImm b, 2⟩, ⟨0xC5, (.mem (.zp b)), .cmpZp b, 3⟩, ⟨0xD5, (.mem (.zpx b)), .cmpZpx b, 4⟩,
   ⟨0xCD, (.mem (.abs w)), .cmpAbs w, 4⟩, ⟨0xDD, (.mem (.absx w)), .cmpAbsx w, 4⟩,
   ⟨0xD9, (.mem (.absy w)), .cmpAbsy w, 4⟩, ⟨0xC1, (.mem (.indx b)), .cmpIndx b, 6⟩,
   ⟨0xD1, (.mem (.indy b)), .cmpIndy b, 5⟩]

/-- CPX (30_encoding.md R161, R170). -/
def cpxRows (b : Byte) (w : Word) : List ReadRow :=
  [⟨0xE0, (.imm b), .cpxImm b, 2⟩, ⟨0xE4, (.mem (.zp b)), .cpxZp b, 3⟩, ⟨0xEC, (.mem (.abs w)), .cpxAbs w, 4⟩]

/-- CPY (30_encoding.md R161, R170). -/
def cpyRows (b : Byte) (w : Word) : List ReadRow :=
  [⟨0xC0, (.imm b), .cpyImm b, 2⟩, ⟨0xC4, (.mem (.zp b)), .cpyZp b, 3⟩, ⟨0xCC, (.mem (.abs w)), .cpyAbs w, 4⟩]

/-- BIT (30_encoding.md R161, R170). -/
def bitRows (b : Byte) (w : Word) : List ReadRow :=
  [⟨0x24, (.mem (.zp b)), .bitZp b, 3⟩, ⟨0x2C, (.mem (.abs w)), .bitAbs w, 4⟩]

/-- STA (30_encoding.md R161, R170), memory forms. -/
def staRows (b : Byte) (w : Word) : List AddrRow :=
  [⟨0x85, .zp b, .staZp b, 3⟩, ⟨0x95, .zpx b, .staZpx b, 4⟩, ⟨0x8D, .abs w, .staAbs w, 4⟩,
   ⟨0x9D, .absx w, .staAbsx w, 5⟩, ⟨0x99, .absy w, .staAbsy w, 5⟩, ⟨0x81, .indx b, .staIndx b, 6⟩,
   ⟨0x91, .indy b, .staIndy b, 6⟩]

/-- STX (30_encoding.md R161, R170), memory forms. -/
def stxRows (b : Byte) (w : Word) : List AddrRow :=
  [⟨0x86, .zp b, .stxZp b, 3⟩, ⟨0x96, .zpy b, .stxZpy b, 4⟩, ⟨0x8E, .abs w, .stxAbs w, 4⟩]

/-- STY (30_encoding.md R161, R170), memory forms. -/
def styRows (b : Byte) (w : Word) : List AddrRow :=
  [⟨0x84, .zp b, .styZp b, 3⟩, ⟨0x94, .zpx b, .styZpx b, 4⟩, ⟨0x8C, .abs w, .styAbs w, 4⟩]

/-- INC (30_encoding.md R161, R170), memory forms. -/
def incRows (b : Byte) (w : Word) : List AddrRow :=
  [⟨0xE6, .zp b, .incZp b, 5⟩, ⟨0xF6, .zpx b, .incZpx b, 6⟩, ⟨0xEE, .abs w, .incAbs w, 6⟩,
   ⟨0xFE, .absx w, .incAbsx w, 7⟩]

/-- DEC (30_encoding.md R161, R170), memory forms. -/
def decRows (b : Byte) (w : Word) : List AddrRow :=
  [⟨0xC6, .zp b, .decZp b, 5⟩, ⟨0xD6, .zpx b, .decZpx b, 6⟩, ⟨0xCE, .abs w, .decAbs w, 6⟩,
   ⟨0xDE, .absx w, .decAbsx w, 7⟩]

/-- ASL (30_encoding.md R161, R170), memory forms. -/
def aslRows (b : Byte) (w : Word) : List AddrRow :=
  [⟨0x06, .zp b, .aslZp b, 5⟩, ⟨0x16, .zpx b, .aslZpx b, 6⟩, ⟨0x0E, .abs w, .aslAbs w, 6⟩,
   ⟨0x1E, .absx w, .aslAbsx w, 7⟩]

/-- LSR (30_encoding.md R161, R170), memory forms. -/
def lsrRows (b : Byte) (w : Word) : List AddrRow :=
  [⟨0x46, .zp b, .lsrZp b, 5⟩, ⟨0x56, .zpx b, .lsrZpx b, 6⟩, ⟨0x4E, .abs w, .lsrAbs w, 6⟩,
   ⟨0x5E, .absx w, .lsrAbsx w, 7⟩]

/-- ROL (30_encoding.md R161, R170), memory forms. -/
def rolRows (b : Byte) (w : Word) : List AddrRow :=
  [⟨0x26, .zp b, .rolZp b, 5⟩, ⟨0x36, .zpx b, .rolZpx b, 6⟩, ⟨0x2E, .abs w, .rolAbs w, 6⟩,
   ⟨0x3E, .absx w, .rolAbsx w, 7⟩]

/-- ROR (30_encoding.md R161, R170), memory forms. -/
def rorRows (b : Byte) (w : Word) : List AddrRow :=
  [⟨0x66, .zp b, .rorZp b, 5⟩, ⟨0x76, .zpx b, .rorZpx b, 6⟩, ⟨0x6E, .abs w, .rorAbs w, 6⟩,
   ⟨0x7E, .absx w, .rorAbsx w, 7⟩]

/-- The eight branches with their conditions (44_control_transfer.md R274 to R281). -/
def branchRows (d : Byte) (c : Cpu) : List BranchRow :=
  [⟨0x90, .bcc d, !c.c⟩,
   ⟨0xB0, .bcs d, c.c⟩,
   ⟨0xF0, .beq d, c.z⟩,
   ⟨0xD0, .bne d, !c.z⟩,
   ⟨0x30, .bmi d, c.n⟩,
   ⟨0x10, .bpl d, !c.n⟩,
   ⟨0x50, .bvc d, !c.v⟩,
   ⟨0x70, .bvs d, c.v⟩]

/-- The transfers (40_load_store_transfer.md R206 to R211). -/
def transferRows (c : Cpu) : List CpuRow :=
  [⟨0xAA, .tax, setNZ c.a { c with x := c.a }, 2⟩,
   ⟨0xA8, .tay, setNZ c.a { c with y := c.a }, 2⟩,
   ⟨0x8A, .txa, setNZ c.x { c with a := c.x }, 2⟩,
   ⟨0x98, .tya, setNZ c.y { c with a := c.y }, 2⟩,
   ⟨0xBA, .tsx, setNZ c.s { c with x := c.s }, 2⟩,
   ⟨0x9A, .txs, { c with s := c.x }, 2⟩]

/-- Increment and decrement of a register (41_arithmetic_logic.md R232 to R235). -/
def stepRows (c : Cpu) : List CpuRow :=
  [⟨0xE8, .inx, setNZ (c.x + 1) { c with x := c.x + 1 }, 2⟩,
   ⟨0xC8, .iny, setNZ (c.y + 1) { c with y := c.y + 1 }, 2⟩,
   ⟨0xCA, .dex, setNZ (c.x - 1) { c with x := c.x - 1 }, 2⟩,
   ⟨0x88, .dey, setNZ (c.y - 1) { c with y := c.y - 1 }, 2⟩]

/-- The shifts and rotates of the accumulator (42_shift_rotate.md R250 to R253); `c.c` is the old carry. -/
def shiftAccRows (c : Cpu) : List CpuRow :=
  [⟨0x0A, .aslAcc, setNZ (c.a <<< 1) { c with a := c.a <<< 1, c := c.a.getLsbD 7 }, 2⟩,
   ⟨0x4A, .lsrAcc, setNZ (c.a >>> 1) { c with a := c.a >>> 1, c := c.a.getLsbD 0 }, 2⟩,
   ⟨0x2A, .rolAcc, setNZ ((c.a <<< 1) ||| (if c.c then 1 else 0))
      { c with a := (c.a <<< 1) ||| (if c.c then 1 else 0), c := c.a.getLsbD 7 }, 2⟩,
   ⟨0x6A, .rorAcc, setNZ ((c.a >>> 1) ||| (if c.c then 0x80 else 0))
      { c with a := (c.a >>> 1) ||| (if c.c then 0x80 else 0), c := c.a.getLsbD 0 }, 2⟩]

/-- The flag instructions and NOP (45_flags_system.md R290 to R297). -/
def flagRows (c : Cpu) : List CpuRow :=
  [⟨0x18, .clc, { c with c := false }, 2⟩,
   ⟨0x38, .sec, { c with c := true }, 2⟩,
   ⟨0x58, .cli, { c with i := false }, 2⟩,
   ⟨0x78, .sei, { c with i := true }, 2⟩,
   ⟨0xD8, .cld, { c with d := false }, 2⟩,
   ⟨0xF8, .sed, { c with d := true }, 2⟩,
   ⟨0xB8, .clv, { c with v := false }, 2⟩,
   ⟨0xEA, .nop, c, 2⟩]

/-- ADC's effect (41_arithmetic_logic.md R221), the sum a natural number. -/
def adcEffect (m : Byte) (c : Cpu) : Cpu :=
  let sum := c.a.toNat + m.toNat + (if c.c then 1 else 0)
  let r := BitVec.ofNat 8 sum
  setNZ r { c with a := r, c := decide (256 ≤ sum), v := ((r ^^^ c.a) &&& (r ^^^ m) &&& 0x80) != 0 }

/-- SBC's effect, in R222's second form: `r = (A - M - (1 - C)) mod 256`, C says no borrow, V is signed overflow. -/
def sbcEffect (m : Byte) (c : Cpu) : Cpu :=
  let r := c.a - m - (if c.c then 0 else 1)
  setNZ r { c with a := r, c := decide (m.toNat + (if c.c then 0 else 1) ≤ c.a.toNat),
                   v := ((c.a ^^^ m) &&& (c.a ^^^ r) &&& 0x80) != 0 }

/-- `Compare(R, M)` (R226). -/
def compareEffect (r m : Byte) (c : Cpu) : Cpu :=
  { c with c := decide (m.toNat ≤ r.toNat), n := (r - m).getLsbD 7, z := decide (r = m) }

/-- The word a vector fetch reads, from `s`: low byte at the vector (60_exceptions.md R410). -/
def vectorWord (k : IntKind) (s : State) : Word := mkWord (busRead (k.vector + 1) s).1 (busRead k.vector s).1

/-- `t` is `s` with `pc` and status `p` pushed, S 3 less and I set, the vector word `w` read over the bus, and the processor's
PC and sleep as given (60 R409, R412): three stack bytes and the open-bus latch; nothing else changes. -/
def Saved (s t : State) (pc : Word) (p : Byte) (w newPc : Word) (sleep : Nat) : Prop :=
  t.cpu = { s.cpu with s := s.cpu.s - 3, i := true, pc := newPc, sleep := sleep } ∧
  t.cell .ram (stackPlace s.cpu.s) = hiByte pc ∧
  t.cell .ram (stackPlace (s.cpu.s - 1)) = loByte pc ∧
  t.cell .ram (stackPlace (s.cpu.s - 2)) = p ∧
  OnlyRam s t [stackPlace s.cpu.s, stackPlace (s.cpu.s - 1), stackPlace (s.cpu.s - 2)] ∧
  t = { s with cpu := t.cpu, ram := t.ram, busLatch := hiByte w }

/-- `t` is `s` after the interrupt sequence that pushes `pc` and status `p` and jumps to `target`. -/
def Entered (s t : State) (pc : Word) (p : Byte) (target : Word) : Prop := Saved s t pc p target target 6

/-- `t` is the state of an interrupt sequence that ended at its vector's read of $FFFF (60 R410, R421): the pushes made, S and I
written, PC still the pushed `pc`, and the cost not yet counted. -/
def EntryFailed (s t : State) (pc : Word) (p : Byte) : Prop := Saved s t pc p 0xFFFF pc s.cpu.sleep

/-- The trace snapshot of an instruction `i` at `a` (10_state.md R44), `u` the state after its fetch. -/
def snapshot (a : Word) (op : Byte) (operands : List Byte) (i : Instr) (u : State) : Trace where
  addr := a
  opcode := op
  operands := operands
  mode := i.operand.mode
  ea := effectiveAddress i.operand u

/-- `exec`'s outcome with the trace snapshot of the completed instruction. -/
def traced (tr : Trace) : Outcome → Outcome
  | .next s => .next { s with cpu := { s.cpu with trace := some tr } }
  | .fault f => .fault f
  | .refused r => .refused r

/-- An outcome as the clock surfaces it (70_reset_and_hazards.md R721): a fault's state has the fault in its record, and a
fatal one has stopped the clock there. -/
def surfaced : Outcome → Outcome
  | .next s => .next s
  | .fault (.invalidOpcode op a t) => .fault (.invalidOpcode op a { t with faults := .invalidOpcode op a :: t.faults })
  | .fault (.badVector v t) => .fault (.badVector v { t with faults := .badVector v :: t.faults, stopped := true })
  | .fault (.portWordRead a t) =>
    .fault (.portWordRead a { t with faults := .portWordRead a :: t.faults, stopped := true })
  | .fault (.loadUnsupportedMapper n) => .fault (.loadUnsupportedMapper n)
  | .fault .loadMalformedRom => .fault .loadMalformedRom
  | .refused r => .refused r

/-- The processor after a hard reset to `pc` (70_reset_and_hazards.md R700, R703). -/
def coldCpu (pc : Word) : Cpu where
  a := 0
  x := 0
  y := 0
  s := 0xFD
  pc := pc
  c := false
  z := false
  i := true
  d := false
  v := false
  n := false
  sleep := 6
  nmiPending := false
  irqPending := false
  unsupportedSeen := none
  trace := none

/-- The PPU with every register, latch and counter at 0 and both sprite lists empty (R704), its memories and frames given. -/
def zeroPpu (oam vram palette : Mem) (back published : Frame) : Ppu where
  ctrl := 0
  mask := 0
  vblank := false
  sprite0Hit := false
  spriteOverflow := false
  v := 0
  t := 0
  x := 0
  w := false
  oamAddr := 0
  readBuffer := 0
  ioLatch := 0
  oam := oam
  secondary := []
  sprites := []
  bgPatLo := 0
  bgPatHi := 0
  bgAtLo := 0
  bgAtHi := 0
  ntLatch := 0
  atLatch := 0
  patLoLatch := 0
  patHiLatch := 0
  vram := vram
  palette := palette
  scanline := 0
  dot := 0
  oddFrame := false
  backFrame := back
  publishedFrame := published

/-- The shift-register variant at power-on (62_mappers_cartridge.md R630). -/
def coldMmc1 : Mmc1 where
  shift := 0
  count := 0
  control := 0x0C
  chr0 := 0
  chr1 := 0
  prg := 0

/-- The scanline-IRQ variant at power-on (62_mappers_cartridge.md R640). -/
def coldMmc3 : Mmc3 where
  bankSelect := 0
  r0 := 0
  r1 := 0
  r2 := 0
  r3 := 0
  r4 := 0
  r5 := 0
  r6 := 0
  r7 := 0
  mirrorBit := false
  prgRamProtect := 0x80
  irqLatch := 0
  irqCounter := 0
  irqReload := false
  irqEnabled := false

/-- The 105 unregistered opcode bytes (30_encoding.md R162). -/
def unregisteredOpcodes : List Byte :=
  [0x02, 0x03, 0x04, 0x07, 0x0B, 0x0C, 0x0F, 0x12, 0x13, 0x14, 0x17, 0x1A, 0x1B, 0x1C, 0x1F] ++
  [0x22, 0x23, 0x27, 0x2B, 0x2F, 0x32, 0x33, 0x34, 0x37, 0x3A, 0x3B, 0x3C, 0x3F] ++
  [0x42, 0x43, 0x44, 0x47, 0x4B, 0x4F, 0x52, 0x53, 0x54, 0x57, 0x5A, 0x5B, 0x5C, 0x5F] ++
  [0x62, 0x63, 0x64, 0x67, 0x6B, 0x6F, 0x72, 0x73, 0x74, 0x77, 0x7A, 0x7B, 0x7C, 0x7F] ++
  [0x80, 0x82, 0x83, 0x87, 0x89, 0x8B, 0x8F, 0x92, 0x93, 0x97, 0x9B, 0x9C, 0x9E, 0x9F] ++
  [0xA3, 0xA7, 0xAB, 0xAF, 0xB2, 0xB3, 0xB7, 0xBB, 0xBF, 0xC2, 0xC3, 0xC7, 0xCB, 0xCF] ++
  [0xD2, 0xD3, 0xD4, 0xD7, 0xDA, 0xDB, 0xDC, 0xDF, 0xE2, 0xE3, 0xE7, 0xEB, 0xEF] ++
  [0xF2, 0xF3, 0xF4, 0xF7, 0xFA, 0xFB, 0xFC, 0xFF]

/-- The opcodes of the writers of A (10_state.md R30). -/
def writersOfA : List Byte :=
  [0x01, 0x05, 0x09, 0x0A, 0x0D, 0x11, 0x15, 0x19, 0x1D, 0x21, 0x25, 0x29, 0x2A, 0x2D, 0x31, 0x35] ++
  [0x39, 0x3D, 0x41, 0x45, 0x49, 0x4A, 0x4D, 0x51, 0x55, 0x59, 0x5D, 0x61, 0x65, 0x68, 0x69, 0x6A] ++
  [0x6D, 0x71, 0x75, 0x79, 0x7D, 0x8A, 0x98, 0xA1, 0xA5, 0xA9, 0xAD, 0xB1, 0xB5, 0xB9, 0xBD, 0xE1] ++
  [0xE5, 0xE9, 0xED, 0xF1, 0xF5, 0xF9, 0xFD]

/-- The opcodes of the writers of X (R31). -/
def writersOfX : List Byte :=
  [0xA2, 0xA6, 0xAA, 0xAE, 0xB6, 0xBA, 0xBE, 0xCA, 0xE8]

/-- The opcodes of the writers of Y (R32). -/
def writersOfY : List Byte :=
  [0x88, 0xA0, 0xA4, 0xA8, 0xAC, 0xB4, 0xBC, 0xC8]

/-- The opcodes of the writers of S (R33). -/
def writersOfS : List Byte :=
  [0x00, 0x08, 0x20, 0x28, 0x40, 0x48, 0x60, 0x68, 0x9A]

/-- The opcodes of the writers of C (R38). -/
def writersOfC : List Byte :=
  [0x06, 0x0A, 0x0E, 0x16, 0x18, 0x1E, 0x26, 0x28, 0x2A, 0x2E, 0x36, 0x38, 0x3E, 0x40, 0x46, 0x4A] ++
  [0x4E, 0x56, 0x5E, 0x61, 0x65, 0x66, 0x69, 0x6A, 0x6D, 0x6E, 0x71, 0x75, 0x76, 0x79, 0x7D, 0x7E] ++
  [0xC0, 0xC1, 0xC4, 0xC5, 0xC9, 0xCC, 0xCD, 0xD1, 0xD5, 0xD9, 0xDD, 0xE0, 0xE1, 0xE4, 0xE5, 0xE9] ++
  [0xEC, 0xED, 0xF1, 0xF5, 0xF9, 0xFD]

/-- The opcodes of the writers of N and Z: SetNZ, BIT, the compares, PLP, RTI (R38). -/
def writersOfNZ : List Byte :=
  [0x01, 0x05, 0x06, 0x09, 0x0A, 0x0D, 0x0E, 0x11, 0x15, 0x16, 0x19, 0x1D, 0x1E, 0x21, 0x24, 0x25] ++
  [0x26, 0x28, 0x29, 0x2A, 0x2C, 0x2D, 0x2E, 0x31, 0x35, 0x36, 0x39, 0x3D, 0x3E, 0x40, 0x41, 0x45] ++
  [0x46, 0x49, 0x4A, 0x4D, 0x4E, 0x51, 0x55, 0x56, 0x59, 0x5D, 0x5E, 0x61, 0x65, 0x66, 0x68, 0x69] ++
  [0x6A, 0x6D, 0x6E, 0x71, 0x75, 0x76, 0x79, 0x7D, 0x7E, 0x88, 0x8A, 0x98, 0xA0, 0xA1, 0xA2, 0xA4] ++
  [0xA5, 0xA6, 0xA8, 0xA9, 0xAA, 0xAC, 0xAD, 0xAE, 0xB1, 0xB4, 0xB5, 0xB6, 0xB9, 0xBA, 0xBC, 0xBD] ++
  [0xBE, 0xC0, 0xC1, 0xC4, 0xC5, 0xC6, 0xC8, 0xC9, 0xCA, 0xCC, 0xCD, 0xCE, 0xD1, 0xD5, 0xD6, 0xD9] ++
  [0xDD, 0xDE, 0xE0, 0xE1, 0xE4, 0xE5, 0xE6, 0xE8, 0xE9, 0xEC, 0xED, 0xEE, 0xF1, 0xF5, 0xF6, 0xF9] ++
  [0xFD, 0xFE]

/-- The opcodes of the writers of I (R38). -/
def writersOfI : List Byte :=
  [0x00, 0x28, 0x40, 0x58, 0x78]

/-- The opcodes of the writers of D (R38). -/
def writersOfD : List Byte :=
  [0x28, 0x40, 0xD8, 0xF8]

/-- The opcodes of the writers of V (R38). -/
def writersOfV : List Byte :=
  [0x24, 0x28, 0x2C, 0x40, 0x61, 0x65, 0x69, 0x6D, 0x71, 0x75, 0x79, 0x7D, 0xB8, 0xE1, 0xE5, 0xE9] ++
  [0xED, 0xF1, 0xF5, 0xF9, 0xFD]

end Sys2Proof.Claims

open Sys2Proof Sys2Proof.Machine Sys2Proof.Claims

/-- The round trip over the whole instruction set: no operand bit is dropped (30_encoding.md R130, R131, R161). -/
def Obligations.DecodeEncodeAgree : Prop :=
  ∀ (i : Instr) (rest : List Byte), i.WellFormed → decode (encode i ++ rest) = .ok (i, rest)

/-- The other direction: each word has one meaning, and the mode alone fixes the length (R130). -/
def Obligations.EncodeDecodeAgree : Prop :=
  ∀ (bs : List Byte) (i : Instr) (rest : List Byte), decode bs = .ok (i, rest) →
    encode i ++ rest = bs ∧ bs.length = rest.length + i.operand.mode.length

/-- The examples of 30_encoding.md R180, read from their bits. -/
def Obligations.SpecWordsDecode : Prop :=
  decode [0b11101000] = .ok (.inx, []) ∧
  decode [0b00001010] = .ok (.aslAcc, []) ∧
  decode [0b10101001, 0b00010000] = .ok (.ldaImm 0x10, []) ∧
  decode [0b10100101, 0b00010000] = .ok (.ldaZp 0x10, []) ∧
  decode [0b10110101, 0b00010000] = .ok (.ldaZpx 0x10, []) ∧
  decode [0b10110110, 0b00010000] = .ok (.ldxZpy 0x10, []) ∧
  decode [0b10101101, 0b00110100, 0b00010010] = .ok (.ldaAbs 0x1234, []) ∧
  decode [0b10111101, 0b00110100, 0b00010010] = .ok (.ldaAbsx 0x1234, []) ∧
  decode [0b10111001, 0b00110100, 0b00010010] = .ok (.ldaAbsy 0x1234, []) ∧
  decode [0b01101100, 0b00110100, 0b00010010] = .ok (.jmpInd 0x1234, []) ∧
  decode [0b10100001, 0b00010000] = .ok (.ldaIndx 0x10, []) ∧
  decode [0b10110001, 0b00010000] = .ok (.ldaIndy 0x10, []) ∧
  decode [0b11010000, 0b11111011] = .ok (.bne 0xFB, [])

/-- R162's list; which opcodes are registered is the spec's decision D2. -/
def Obligations.UnregisteredOpcodesRefused : Prop :=
  unregisteredOpcodes.length = 105 ∧ ∀ (op b1 b2 : Byte),
    (op ∈ unregisteredOpcodes → decode [op, b1, b2] = .error (.unregistered op)) ∧
    (op ∉ unregisteredOpcodes → ∃ i rest, decode [op, b1, b2] = .ok (i, rest) ∧ i.opcode = op)

/-- R406, R138 and R720: the order of the accesses is D37; the port check on the second byte is D34; the record of a fault is D68 and log 6; the shape of the snapshot is log 11. -/
def Obligations.StepRunsDecodedInstruction : Prop :=
  ∀ (s : State), s.hostRequest = none → s.shutdown = false → s.stopped = false →
    let u := ppuTick (ppuTick (ppuTick s))
    let pc := u.cpu.pc
    u.cpu.sleep = 0 → u.cpu.nmiPending = false → (u.cpu.irqPending && !u.cpu.i) = false →
    let r0 := busRead pc u
    let u0 := { r0.2 with cpu := { u.cpu with pc := pc + 1 } }
    let r1 := busRead (pc + 1) u0
    let u1 := { r1.2 with cpu := { u.cpu with pc := pc + 2 } }
    let r2 := busRead (pc + 2) r1.2
    let u2 := { r2.2 with cpu := { u.cpu with pc := pc + 3 } }
    (∀ i, decode [r0.1] = .ok (i, []) → step s = surfaced (traced (snapshot pc r0.1 [] i u0) (exec i u0))) ∧
    (∀ i, decode [r0.1, r1.1] = .ok (i, []) →
      step s = surfaced (traced (snapshot pc r0.1 [r1.1] i u1) (exec i u1))) ∧
    (∀ i, decode [r0.1, r1.1, r2.1] = .ok (i, []) →
      ((isPort (pc + 1) || isPort (pc + 2)) = false →
        step s = surfaced (traced (snapshot pc r0.1 [r1.1, r2.1] i u2) (exec i u2))) ∧
      ((isPort (pc + 1) || isPort (pc + 2)) = true → step s = surfaced (.fault (.portWordRead (pc + 1) u0))))

/-- R720 to R722, R408, R421, R450; the order within a tick is the spec's decision D60, the record D57 and D68; the host requests as state are log 10, the record and the stopped clock as state are log 6; that a faulted state is never final is R408 and R421. -/
def Obligations.StepIsTickOrReset : Prop :=
  ∀ s : State,
    (s.hostRequest = some .powerOn → step s = surfaced (powerCycle s)) ∧
    (s.hostRequest = some .hardReset → step s = surfaced (hardReset s)) ∧
    (s.hostRequest = some .softReset → step s = surfaced (softReset s)) ∧
    (s.hostRequest = none → (s.shutdown || s.stopped) = true → step s = .next s) ∧
    (s.hostRequest = none → (s.shutdown || s.stopped) = false →
      step s = surfaced (cpuStep (ppuTick (ppuTick (ppuTick s))))) ∧
    (s.hostRequest ≠ some .powerOn → ∀ t, step s = .next t → t.faults = s.faults) ∧
    (∀ f t loop, step s = .fault f → f.after = some t → Safety.atLoopEnd loop t = false) ∧
    (∀ f t loop, powerOn s.launch = .fault f → f.after = some t → Safety.atLoopEnd loop t = false)

/-- R401. -/
def Obligations.SleepingStepOnlyCounts : Prop :=
  ∀ s : State, 0 < s.cpu.sleep → cpuStep s = .next { s with cpu := { s.cpu with sleep := s.cpu.sleep - 1 } }

/-- R403 to R405; clearing the NMI latch is the spec's decision D15, keeping the IRQ latch D16. -/
def Obligations.InterruptPriority : Prop :=
  ∀ s : State, s.cpu.sleep = 0 →
    (s.cpu.nmiPending = true → cpuStep s = takeInterrupt .nmi { s with cpu := { s.cpu with nmiPending := false } }) ∧
    (s.cpu.nmiPending = false → s.cpu.irqPending = true → s.cpu.i = false → cpuStep s = takeInterrupt .irq s) ∧
    (s.cpu.nmiPending = false → (s.cpu.irqPending = false ∨ s.cpu.i = true) → cpuStep s = fetchExecute s)

/-- R407 and R408; length, cost and the failed step's state are the spec's decisions D3 and D57. -/
def Obligations.UnregisteredOpcodePolicy : Prop :=
  ∀ s : State, s.cpu.sleep = 0 → s.cpu.nmiPending = false → (s.cpu.irqPending = false ∨ s.cpu.i = true) →
    let op := (busRead s.cpu.pc s).1
    let u := (busRead s.cpu.pc s).2
    let t := { u with cpu := { s.cpu with pc := s.cpu.pc + 1, unsupportedSeen := some ⟨op, s.cpu.pc⟩ } }
    op ∈ unregisteredOpcodes →
      (s.launch.strictOpcodes = false → cpuStep s = .next { t with cpu := { t.cpu with sleep := 1 } }) ∧
      (s.launch.strictOpcodes = true → cpuStep s = .fault (.invalidOpcode op s.cpu.pc t))

/-- R409 to R412, R421; cost, Break bit and the $FFFF check are the spec's decisions D7, D9 and D17, the kept accesses of a fault D68. -/
def Obligations.InterruptEntry : Prop :=
  ∀ (s : State) (k : IntKind), k = .nmi ∨ k = .irq →
    (vectorWord k s ≠ 0xFFFF →
      ∃ t, takeInterrupt k s = .next t ∧ Entered s t s.cpu.pc (s.cpu.status false) (vectorWord k s)) ∧
    (vectorWord k s = 0xFFFF → ∃ t, takeInterrupt k s = .fault (.badVector k.vector t) ∧
      EntryFailed s t s.cpu.pc (s.cpu.status false))

/-- R298 with R409, R421; cost, Break bit and the $FFFF check are the spec's decisions D7, D9 and D17, the kept accesses of a fault D68. -/
def Obligations.BrkCompletes : Prop :=
  Instr.brk.opcode = 0x00 ∧ Instr.brk.operand = .imp ∧ ∀ s : State,
    (vectorWord .brk s ≠ 0xFFFF →
      ∃ t, exec .brk s = .next t ∧ Entered s t (s.cpu.pc + 1) (s.cpu.status true) (vectorWord .brk s)) ∧
    (vectorWord .brk s = 0xFFFF → ∃ t, exec .brk s = .fault (.badVector 0xFFFE t) ∧
      EntryFailed s t (s.cpu.pc + 1) (s.cpu.status true))

/-- R299; discarding bits 5 and 4 is the spec's decision D10, the byte order D8. -/
def Obligations.RtiCompletes : Prop :=
  Instr.rti.opcode = 0x40 ∧ Instr.rti.operand = .imp ∧ ∀ s : State,
    let p := s.cell .ram (stackPlace (s.cpu.s + 1))
    let lo := s.cell .ram (stackPlace (s.cpu.s + 2))
    let hi := s.cell .ram (stackPlace (s.cpu.s + 3))
    exec .rti s = .next { s with
      busLatch := hi
      cpu := { s.cpu with
        n := p.getLsbD 7, v := p.getLsbD 6, d := p.getLsbD 3, i := p.getLsbD 2, z := p.getLsbD 1, c := p.getLsbD 0
        s := s.cpu.s + 3, pc := mkWord hi lo, sleep := 5 } }

/-- R414, the spec's derivation, and R271's example. -/
def Obligations.ReturnsUndoEntries : Prop :=
  (∀ (s t : State) (k : IntKind), k ≠ .reset → takeInterrupt k s = .next t →
    ∃ u, exec .rti t = .next u ∧ u.cpu = { s.cpu with sleep := 5 } ∧ u.ram = t.ram) ∧
  (∀ (w : Word) (s t : State), exec (.jsr w) s = .next t →
    ∃ u, exec .rts t = .next u ∧ u.cpu = { s.cpu with sleep := 5 } ∧ u.ram = t.ram)

/-- R652, R654 and R404; the rules rest on the spec's decisions D15, D16 and D33. -/
def Obligations.LatchesUnderInstructions : Prop :=
  ∀ (i : Instr) (s t : State), exec i s = .next t →
    (s.cpu.nmiPending = true → t.cpu.nmiPending = true) ∧
    (s.cpu.irqPending = false → t.cpu.irqPending = false) ∧
    (s.cpu.irqPending = true → t.cpu.irqPending = false →
      (∃ m, t.mapper.regs = .mmc3 m ∧ m.irqEnabled = false) ∧
      ∃ a, i.operand = .src (.mem a) ∧ (locate a s).ea &&& 0xE001 = 0xE000)

/-- R200 to R202; the page-cross cost is the spec's decision D4. -/
def Obligations.LoadsComplete : Prop :=
  ReadsComplete ldaRows (fun m c => setNZ m { c with a := m }) ∧
  ReadsComplete ldxRows (fun m c => setNZ m { c with x := m }) ∧
  ReadsComplete ldyRows (fun m c => setNZ m { c with y := m })

/-- R203 to R205; the fixed costs of the indexed forms are the spec's decision D4. -/
def Obligations.StoresComplete : Prop :=
  ∀ (b : Byte) (w : Word) (s : State),
    (∀ r ∈ (staRows b w).map (·, s.cpu.a) ++ (stxRows b w).map (·, s.cpu.x) ++ (styRows b w).map (·, s.cpu.y),
      let ea := (locate r.1.addr s).ea
      let u := (locate r.1.addr s).st
      r.1.instr.opcode = r.1.op ∧ r.1.instr.operand = .src (.mem r.1.addr) ∧ ReadOnly s u ∧ Stored u ea r.2 (busWrite ea r.2 u) ∧
      WriteFrame u ea r.2 (busWrite ea r.2 u) ∧ u.cpu = s.cpu ∧
      exec r.1.instr s = .next { busWrite ea r.2 u with
        cpu := { (busWrite ea r.2 u).cpu with sleep := r.1.cost - 1 } })

/-- R206 to R211 and R232 to R235. -/
def Obligations.RegisterInstructionsComplete : Prop :=
  ∀ s : State, CpuCompletes s .imp (transferRows s.cpu ++ stepRows s.cpu)

/-- R221. -/
def Obligations.AdcCompletes : Prop :=
  ReadsComplete adcRows adcEffect

/-- R222 in its second form, the spec's derivation; that SBC adds the complement is the spec's decision D12. -/
def Obligations.SbcCompletes : Prop :=
  ReadsComplete sbcRows sbcEffect

/-- R223 to R225. -/
def Obligations.LogicCompletes : Prop :=
  ReadsComplete andRows (fun m c => setNZ (c.a &&& m) { c with a := c.a &&& m }) ∧
  ReadsComplete oraRows (fun m c => setNZ (c.a ||| m) { c with a := c.a ||| m }) ∧
  ReadsComplete eorRows (fun m c => setNZ (c.a ^^^ m) { c with a := c.a ^^^ m })

/-- R226 to R228. -/
def Obligations.ComparesComplete : Prop :=
  ReadsComplete cmpRows (fun m c => compareEffect c.a m c) ∧
  ReadsComplete cpxRows (fun m c => compareEffect c.x m c) ∧
  ReadsComplete cpyRows (fun m c => compareEffect c.y m c)

/-- R229, the spec's decision D13. -/
def Obligations.BitCompletes : Prop :=
  ReadsComplete bitRows
    (fun m c => { c with z := decide (c.a &&& m = 0), n := m.getLsbD 7, v := m.getLsbD 6 })

/-- R230 and R231. -/
def Obligations.IncDecMemoryCompletes : Prop :=
  ModifiesComplete incRows (fun v _ => v + 1) (fun v c => setNZ (v + 1) c) ∧
  ModifiesComplete decRows (fun v _ => v - 1) (fun v c => setNZ (v - 1) c)

/-- R250 to R253 in accumulator mode (the memory forms: MemoryShiftsComplete). -/
def Obligations.AccumulatorShiftsComplete : Prop :=
  ∀ s : State, CpuCompletes s (.src .acc) (shiftAccRows s.cpu)

/-- R250 to R253 in the memory modes; one read and one write is the spec's decision D37. -/
def Obligations.MemoryShiftsComplete : Prop :=
  ModifiesComplete aslRows (fun v _ => v <<< 1) (fun v c => setNZ (v <<< 1) { c with c := v.getLsbD 7 }) ∧
  ModifiesComplete lsrRows (fun v _ => v >>> 1) (fun v c => setNZ (v >>> 1) { c with c := v.getLsbD 0 }) ∧
  ModifiesComplete rolRows (fun v c => (v <<< 1) ||| (if c.c then 1 else 0))
    (fun v c => setNZ ((v <<< 1) ||| (if c.c then 1 else 0)) { c with c := v.getLsbD 7 }) ∧
  ModifiesComplete rorRows (fun v c => (v >>> 1) ||| (if c.c then 0x80 else 0))
    (fun v c => setNZ ((v >>> 1) ||| (if c.c then 0x80 else 0)) { c with c := v.getLsbD 0 })

/-- R263 and R264; the Break bit of PHP is the spec's decision D9. -/
def Obligations.PushesComplete : Prop :=
  ∀ s : State, ∀ r ∈ [((0x48 : Byte), Instr.pha, s.cpu.a), (0x08, Instr.php, s.cpu.status true)],
    r.2.1.opcode = r.1 ∧ r.2.1.operand = .imp ∧ ∃ t, exec r.2.1 s = .next t ∧
      t = { s with cpu := { s.cpu with s := s.cpu.s - 1, sleep := 2 }, ram := t.ram, busLatch := r.2.2 } ∧
      t.cell .ram (stackPlace s.cpu.s) = r.2.2 ∧ OnlyRam s t [stackPlace s.cpu.s]

/-- R265 and R266; discarding bits 5 and 4 is the spec's decision D10. -/
def Obligations.PullsComplete : Prop :=
  Instr.pla.opcode = 0x68 ∧ Instr.plp.opcode = 0x28 ∧ Instr.pla.operand = .imp ∧ Instr.plp.operand = .imp ∧ ∀ s : State,
    let p := s.cell .ram (stackPlace (s.cpu.s + 1))
    exec .pla s = .next { s with
      busLatch := p, cpu := setNZ p { s.cpu with a := p, s := s.cpu.s + 1, sleep := 3 } } ∧
    exec .plp s = .next { s with
      busLatch := p
      cpu := { s.cpu with
        n := p.getLsbD 7, v := p.getLsbD 6, d := p.getLsbD 3, i := p.getLsbD 2, z := p.getLsbD 1, c := p.getLsbD 0
        s := s.cpu.s + 1, sleep := 3 } }

/-- R270 with R147. -/
def Obligations.JumpsComplete : Prop :=
  ∀ (w : Word) (s : State),
    (Instr.jmpAbs w).opcode = 0x4C ∧ (Instr.jmpAbs w).operand = .src (.mem (.abs w)) ∧
    exec (.jmpAbs w) s = .next { s with cpu := { s.cpu with pc := w, sleep := 2 } } ∧
    (Instr.jmpInd w).opcode = 0x6C ∧ (Instr.jmpInd w).operand = .src (.mem (.ind w)) ∧
    (let lo := busRead w s
     let hi := busRead ((w &&& 0xFF00) ||| ((w + 1) &&& 0x00FF)) lo.2
     ReadOnly s hi.2 ∧
     exec (.jmpInd w) s = .next { hi.2 with cpu := { s.cpu with pc := mkWord hi.1 lo.1, sleep := 4 } })

/-- R271 and R272; the push order is the spec's decision D8, the order of operand and pushes D38. -/
def Obligations.SubroutineCallsComplete : Prop :=
  (∀ (w : Word) (s : State), (Instr.jsr w).opcode = 0x20 ∧
    (Instr.jsr w).operand = .src (.mem (.abs w)) ∧ ∃ t, exec (.jsr w) s = .next t ∧
    t = { s with cpu := { s.cpu with pc := w, s := s.cpu.s - 2, sleep := 5 }, ram := t.ram
                 busLatch := loByte (s.cpu.pc - 1) } ∧
    t.cell .ram (stackPlace s.cpu.s) = hiByte (s.cpu.pc - 1) ∧
    t.cell .ram (stackPlace (s.cpu.s - 1)) = loByte (s.cpu.pc - 1) ∧
    OnlyRam s t [stackPlace s.cpu.s, stackPlace (s.cpu.s - 1)]) ∧
  Instr.rts.opcode = 0x60 ∧ Instr.rts.operand = .imp ∧ ∀ s : State,
    let lo := s.cell .ram (stackPlace (s.cpu.s + 1))
    let hi := s.cell .ram (stackPlace (s.cpu.s + 2))
    exec .rts s = .next { s with
      busLatch := hi, cpu := { s.cpu with pc := mkWord hi lo + 1, s := s.cpu.s + 2, sleep := 5 } }

/-- R273 to R281. -/
def Obligations.BranchesComplete : Prop :=
  ∀ (d : Byte) (s : State), ∀ r ∈ branchRows d s.cpu,
    let next := s.cpu.pc
    let target := next + d.signExtend 16
    let crossed := decide (next &&& 0xFF00 ≠ target &&& 0xFF00)
    r.instr.opcode = r.op ∧ r.instr.operand = .rel d ∧
    exec r.instr s = .next { s with cpu := { s.cpu with
      pc := if r.taken then target else next
      sleep := 2 + (if r.taken then 1 else 0) + (if r.taken && crossed then 1 else 0) - 1 } }

/-- R290 and R291 whole, and the effects of R292 to R297. -/
def Obligations.FlagInstructionsComplete : Prop :=
  ∀ s : State, CpuCompletes s .imp (flagRows s.cpu)

/-- R430 and R420, the spec's derivations. -/
def Obligations.EveryInstructionLegal : Prop :=
  ∀ (i : Instr) (s : State), (∃ t, exec i s = .next t) ∨
    (i = .brk ∧ vectorWord .brk s = 0xFFFF ∧ ∃ t, exec i s = .fault (.badVector 0xFFFE t))

/-- The writer lists of R30 to R33 and the flag table of R38. -/
def Obligations.RegisterAndFlagWriters : Prop :=
  ∀ (i : Instr) (s t : State), exec i s = .next t →
    (t.cpu.a ≠ s.cpu.a → i.opcode ∈ writersOfA) ∧ (t.cpu.x ≠ s.cpu.x → i.opcode ∈ writersOfX) ∧
    (t.cpu.y ≠ s.cpu.y → i.opcode ∈ writersOfY) ∧ (t.cpu.s ≠ s.cpu.s → i.opcode ∈ writersOfS) ∧
    (t.cpu.c ≠ s.cpu.c → i.opcode ∈ writersOfC) ∧ (t.cpu.z ≠ s.cpu.z → i.opcode ∈ writersOfNZ) ∧
    (t.cpu.n ≠ s.cpu.n → i.opcode ∈ writersOfNZ) ∧ (t.cpu.i ≠ s.cpu.i → i.opcode ∈ writersOfI) ∧
    (t.cpu.d ≠ s.cpu.d → i.opcode ∈ writersOfD) ∧ (t.cpu.v ≠ s.cpu.v → i.opcode ∈ writersOfV)

/-- R736, R43 and R44; that the cost is the counter plus 1 is the spec's decision D5. -/
def Obligations.CostsInRange : Prop :=
  ∀ (i : Instr) (s t : State), exec i s = .next t →
    2 ≤ t.cpu.sleep + 1 ∧ t.cpu.sleep + 1 ≤ 7 ∧ t.cpu.unsupportedSeen = s.cpu.unsupportedSeen ∧
    t.cpu.trace = s.cpu.trace ∧ t.launch = s.launch ∧ t.hostRequest = s.hostRequest ∧ t.shutdown = s.shutdown ∧
    t.faults = s.faults ∧ t.stopped = s.stopped ∧ t.ppu.backFrame = s.ppu.backFrame ∧
    t.ppu.publishedFrame = s.ppu.publishedFrame

/-- R36 and R37; the bit places and the discarded bits are the spec's decisions D9 and D10. -/
def Obligations.StatusByte : Prop :=
  ∀ (s : State) (v : Byte) (b : Bool),
    (∀ k, (s.cpu.status b).getLsbD k =
      match k with
      | 7 => s.cpu.n | 6 => s.cpu.v | 5 => true | 4 => b | 3 => s.cpu.d | 2 => s.cpu.i | 1 => s.cpu.z | 0 => s.cpu.c
      | _ => false) ∧
    (s.loadStatus v).cpu.status b = (v &&& 0xCF) ||| 0x20 ||| (if b then 0x10 else 0) ∧
    s.loadStatus v = { s with cpu := { s.cpu with
      n := v.getLsbD 7, v := v.getLsbD 6, d := v.getLsbD 3, i := v.getLsbD 2, z := v.getLsbD 1, c := v.getLsbD 0 } }

/-- R141 to R151, R44; the wraps of pointers and sums are the spec's decisions D35 and D36; what the trace records for an immediate, implied, accumulator or relative operand is log 11. -/
def Obligations.ModesLocate : Prop :=
  ∀ (b : Byte) (w : Word) (s : State),
    let ram (z : Byte) : Byte := s.cell .ram z.toNat
    let px : Word := mkWord (ram (b + s.cpu.x + 1)) (ram (b + s.cpu.x))
    let py : Word := mkWord (ram (b + 1)) (ram b)
    (locate (.zp b) s = ⟨b.setWidth 16, false, s⟩) ∧
    (locate (.zpx b) s = ⟨(b + s.cpu.x).setWidth 16, false, s⟩) ∧
    (locate (.zpy b) s = ⟨(b + s.cpu.y).setWidth 16, false, s⟩) ∧
    (locate (.abs w) s = ⟨w, false, s⟩) ∧
    (locate (.absx w) s = ⟨w + s.cpu.x.setWidth 16, decide (w &&& 0xFF00 ≠ (w + s.cpu.x.setWidth 16) &&& 0xFF00), s⟩) ∧
    (locate (.absy w) s = ⟨w + s.cpu.y.setWidth 16, decide (w &&& 0xFF00 ≠ (w + s.cpu.y.setWidth 16) &&& 0xFF00), s⟩) ∧
    (locate (.indx b) s = ⟨px, false, { s with busLatch := ram (b + s.cpu.x + 1) }⟩) ∧
    (locate (.indy b) s = ⟨py + s.cpu.y.setWidth 16, decide (py &&& 0xFF00 ≠ (py + s.cpu.y.setWidth 16) &&& 0xFF00),
      { s with busLatch := ram (b + 1) }⟩) ∧
    (let lo := busRead w s
     let hi := busRead ((w &&& 0xFF00) ||| ((w + 1) &&& 0x00FF)) lo.2
     locate (.ind w) s = ⟨mkWord hi.1 lo.1, false, hi.2⟩) ∧
    branchTarget w b = w + b.signExtend 16 ∧
    readSource .acc s = ⟨s.cpu.a, false, s⟩ ∧ readSource (.imm b) s = ⟨b, false, s⟩ ∧
    (∀ a, readSource (.mem a) s =
      ⟨(busRead (locate a s).ea (locate a s).st).1, (locate a s).crossed, (busRead (locate a s).ea (locate a s).st).2⟩) ∧
    (∀ a, effectiveAddress (.src (.mem a)) s = some (locate a s).ea) ∧
    effectiveAddress (.src (.imm b)) s = some (s.cpu.pc - 1) ∧ effectiveAddress (.src .acc) s = none ∧
    effectiveAddress .imp s = none ∧ effectiveAddress (.rel b) s = none

/-- R76. -/
def Obligations.RamMirrors : Prop :=
  ∀ (a c : Word) (v : Byte) (s : State), a.toNat < 0x2000 → c.toNat < 0x2000 →
    (busRead c (busWrite a v s)).1 = if a.toNat % 0x800 = c.toNat % 0x800 then v else (busRead c s).1

/-- R83 to R85 with R75 and R612: which addresses are open bus is the spec's decisions D24, D25 and D26, the latch D23. -/
def Obligations.OpenBus : Prop :=
  ∀ (a : Word) (v : Byte) (s : State),
    (busSelect s a = .openBus ↔ (0x4000 ≤ a.toNat ∧ a.toNat < 0x6000) ∨
      (0x6000 ≤ a.toNat ∧ a.toNat < 0x8000 ∧ prgRamWindow s.launch.cart s.mapper.regs = none)) ∧
    (busSelect s a = .openBus → busRead a s = (s.busLatch, s) ∧ busWrite a v s = { s with busLatch := v })

/-- The memory map R86, the spec's derivation, with R526, R531, R612, R634 and R651; which boards have PRG-RAM is the spec's decision D26, the enable and protect bits D30 and D31, the palette's 6 bits D43. -/
def Obligations.StoreMap : Prop :=
  ∀ (a : Word) (s : State),
    (a.toNat < 0x2000 → storedCell s a = some (.ram, a.toNat % 0x800)) ∧
    (0x2000 ≤ a.toNat → a.toNat < 0x4000 →
      (a.toNat % 8 = 4 → storedCell s a = some (.oam, s.ppu.oamAddr.toNat)) ∧
      (a.toNat % 8 = 7 → storedCell s a =
        if (ppuSelect s s.ppu.busAddr).1 = .chrRom then none else some (ppuSelect s s.ppu.busAddr)) ∧
      (a.toNat % 8 ≠ 4 → a.toNat % 8 ≠ 7 → storedCell s a = none)) ∧
    (0x4000 ≤ a.toNat → a.toNat < 0x6000 → storedCell s a = none) ∧
    (0x6000 ≤ a.toNat → a.toNat < 0x8000 → storedCell s a =
      match s.mapper.regs with
      | .nrom => if s.launch.cart.hasPrgRam then some (.prgRam, a.toNat - 0x6000) else none
      | .mmc1 m => if m.prg.getLsbD 4 then none else some (.prgRam, a.toNat - 0x6000)
      | .mmc3 m => if m.prgRamProtect.getLsbD 7 && !m.prgRamProtect.getLsbD 6 then some (.prgRam, a.toNat - 0x6000)
                   else none) ∧
    (0x8000 ≤ a.toNat → storedCell s a = none) ∧
    (∀ v, Stored s a v (busWrite a v s)) ∧
    (0x6000 ≤ a.toNat → a.toNat < 0x8000 →
      (busRead a s).1 =
        if (match s.mapper.regs with
          | .nrom => s.launch.cart.hasPrgRam
          | .mmc1 m => !m.prg.getLsbD 4
          | .mmc3 m => m.prgRamProtect.getLsbD 7)
        then s.cell .prgRam (a.toNat - 0x6000) else s.busLatch)

/-- R615, R631 (the serial protocol itself: SerialProtocol), R641 to R643, R647 to R649, R651 to R654; the slots and their registers are the spec's decisions D31 and D32, the acknowledge D33, the latch kept otherwise D16. -/
def Obligations.RomAddressWrites : Prop :=
  ∀ (a : Word) (v : Byte) (s : State), 0x8000 ≤ a.toNat →
    let t := busWrite a v s
    (∀ q i, t.cell q i = s.cell q i) ∧ t.launch = s.launch ∧ t.ppu = s.ppu ∧
    (s.mapper.regs = .nrom → t = { s with busLatch := v }) ∧
    (∀ m, s.mapper.regs = .mmc1 m →
      t = { s with busLatch := v, mapper := { s.mapper with regs := .mmc1 (m.write a v) } }) ∧
    (∀ m, s.mapper.regs = .mmc3 m →
      let at_ (slot : Word) : Bool := a &&& 0xE001 == slot
      let bank (k : Nat) (old : Byte) : Byte := if at_ 0x8001 && m.bankSelect.toNat % 8 == k then v else old
      t = { s with
        busLatch := v
        mapper := { s.mapper with regs := .mmc3 {
          bankSelect := if at_ 0x8000 then v else m.bankSelect
          r0 := bank 0 m.r0
          r1 := bank 1 m.r1
          r2 := bank 2 m.r2
          r3 := bank 3 m.r3
          r4 := bank 4 m.r4
          r5 := bank 5 m.r5
          r6 := bank 6 m.r6
          r7 := bank 7 m.r7
          mirrorBit := if at_ 0xA000 then v.getLsbD 0 else m.mirrorBit
          prgRamProtect := if at_ 0xA001 then v else m.prgRamProtect
          irqLatch := if at_ 0xC000 then v else m.irqLatch
          irqCounter := m.irqCounter
          irqReload := m.irqReload || at_ 0xC001
          irqEnabled := (m.irqEnabled || at_ 0xE001) && !at_ 0xE000 } }
        cpu := { s.cpu with irqPending := s.cpu.irqPending && !at_ 0xE000 } })

/-- R90 and R91; the check on the second byte and the wrap are the spec's decisions D34 and D36. -/
def Obligations.WordReads : Prop :=
  ∀ (a : Word) (s : State),
    ((isPort a || isPort (a + 1)) = true → readWord a s = .error (.portWordRead a s)) ∧
    ((isPort a || isPort (a + 1)) = false → readWord a s =
      .ok (mkWord (busRead (a + 1) (busRead a s).2).1 (busRead a s).1,
        { s with busLatch := (busRead (a + 1) (busRead a s).2).1 }))

/-- R700, R704 and R705; S and the flags are the spec's decision D18; the cartridge is log 1, the RAMs that list nothing log 2, the frames log 4, the fault record log 6, the open-bus latch after the vector read log 7, the host's fields log 10, the absent snapshot log 11. -/
def Obligations.ResetValues : Prop :=
  powerOn Launch.standard = .next State.reset ∧
  State.reset.cpu = coldCpu 0x8000 ∧
  State.reset.ram = [] ∧ State.reset.busLatch = Config.initOpenBus ∧ State.reset.ppu = zeroPpu [] [] [] [] [] ∧
  State.reset.mapper = { regs := .nrom, prgRam := [], chrRam := [] } ∧ State.reset.launch = Launch.standard ∧
  State.reset.hostRequest = none ∧ State.reset.shutdown = false ∧ State.reset.faults = [] ∧ State.reset.stopped = false

/-- R701 to R705, R721; the latches and the PPU are the spec's decisions D19 and D54, the override D20; that the record and the bus latch are kept are logs 8 and 7, the kept snapshot log 11, the cleared request and the kept shutdown flag log 10, the cleared stop and the kept faults log 6; in the fault's state PC and sleep are log 21, the bus latch log 7. -/
def Obligations.SoftResetCompletes : Prop :=
  ∀ s : State,
    let after (pc : Word) : State := { s with
      hostRequest := none
      stopped := false
      ppu := zeroPpu s.ppu.oam s.ppu.vram s.ppu.palette s.ppu.backFrame s.ppu.publishedFrame
      cpu := { s.cpu with s := s.cpu.s - 3, i := true, nmiPending := false, pc := pc, sleep := 6 } }
    (∀ e, s.launch.entryOverride = some e → softReset s = .next (after e)) ∧
    (s.launch.entryOverride = none → vectorWord .reset s ≠ 0xFFFF →
      softReset s = .next (after (vectorWord .reset s))) ∧
    (s.launch.entryOverride = none → vectorWord .reset s = 0xFFFF →
      softReset s = .fault (.badVector 0xFFFC { after s.cpu.pc with
        busLatch := 0xFF
        cpu := { (after s.cpu.pc).cpu with sleep := s.cpu.sleep } }))

/-- R700, R702 to R705, R604, R610, R614, R630, R640, R721; the override is the spec's decision D20, S and the flags D18, the PPU D54, the trainer D58, the mapper registers D29 and D31; that the two hard resets are told apart is log 9, the bus latch after the vector read log 7, the request cleared and the shutdown flag kept log 10, the absent snapshot log 11, the fault record log 6, a mapper number without a variant log 16, the memories that list nothing log 2, the empty frames log 4; in the fault's state PC and sleep are log 21, the bus latch log 7. -/
def Obligations.HardResetCompletes : Prop :=
  ∀ s : State,
    let cart := s.launch.cart
    let ram := (mapperPowerOn cart).prgRam
    let cold (pc : Word) : State :=
      { cpu := coldCpu pc
        ram := []
        busLatch := Config.initOpenBus
        ppu := zeroPpu [] [] [] [] []
        mapper := {
          regs := if cart.mapperNumber = 1 then .mmc1 coldMmc1 else if cart.mapperNumber = 4 then .mmc3 coldMmc3 else .nrom
          prgRam := ram
          chrRam := [] }
        launch := s.launch
        hostRequest := none
        shutdown := s.shutdown
        faults := []
        stopped := false }
    let warm (pc : Word) : State := { s with
      cpu := coldCpu pc
      ram := []
      ppu := zeroPpu s.ppu.oam s.ppu.vram s.ppu.palette s.ppu.backFrame s.ppu.publishedFrame
      hostRequest := none
      stopped := false }
    powerOn s.launch = surfaced (powerCycle { s with shutdown := false }) ∧
    ((cart.hasTrainer = true → cart.trainer.length = 512) → ∀ i, memRead .prgRam ram i =
      if cart.hasTrainer && (cart.mapperNumber == 1 || cart.mapperNumber == 4 || cart.hasPrgRam) &&
        decide (0x1000 ≤ i ∧ i < 0x1200) then cart.trainer.getD (i - 0x1000) 0 else Config.initMem .prgRam i) ∧
    (∀ e, s.launch.entryOverride = some e → powerCycle s = .next (cold e) ∧ hardReset s = .next (warm e)) ∧
    (s.launch.entryOverride = none →
      (vectorWord .reset (cold 0) ≠ 0xFFFF → powerCycle s = .next (cold (vectorWord .reset (cold 0)))) ∧
      (vectorWord .reset (cold 0) = 0xFFFF →
        powerCycle s = .fault (.badVector 0xFFFC { cold 0 with busLatch := 0xFF })) ∧
      (vectorWord .reset s ≠ 0xFFFF → hardReset s = .next (warm (vectorWord .reset s))) ∧
      (vectorWord .reset s = 0xFFFF →
        hardReset s = .fault (.badVector 0xFFFC { warm s.cpu.pc with
          busLatch := 0xFF
          cpu := { coldCpu s.cpu.pc with sleep := s.cpu.sleep } })))

/-- R550, R551, R553, R554, R557, R558, R566 to R568, R570; the odd-frame skip is the spec's decision D48, the dots of the fetches, the shifts and the pixel D49, grayscale and emphasis without effect D52, the dot of the publication D53; the reload at dot 321 is log 19, a frame as a list of colour indexes log 4. -/
def Obligations.TickDrawsAndAdvances : Prop :=
  ∀ s : State,
    let p := s.ppu
    let q := (ppuTick s).ppu
    let enabled : Bool := p.mask.getLsbD 3 || p.mask.getLsbD 4
    let rendering : Bool := (decide (p.scanline < 240) || decide (p.scanline = 261)) && enabled
    let shifts : Bool := rendering &&
      (decide (2 ≤ p.dot ∧ p.dot ≤ 257) || decide (321 ≤ p.dot ∧ p.dot ≤ 337))
    let shifted (r : BitVec 16) (low : Byte) : BitVec 16 :=
      if shifts then (if p.dot % 8 = 1 then (r <<< 1).extractLsb' 8 8 ++ low else r <<< 1) else r
    let filled (k : Nat) : Byte := if p.atLatch.getLsbD k then 0xFF else 0x00
    let patLo := shifted p.bgPatLo p.patLoLatch
    let patHi := shifted p.bgPatHi p.patHiLatch
    let atLo := shifted p.bgAtLo (filled 0)
    let atHi := shifted p.bgAtHi (filled 1)
    let x := p.dot - 1
    let two (hi lo : Bool) : Nat := (if hi then 2 else 0) + (if lo then 1 else 0)
    let k := 15 - p.x.toNat
    let bp := if p.mask.getLsbD 3 = true ∧ (8 ≤ x ∨ p.mask.getLsbD 1 = true)
      then two (patHi.getLsbD k) (patLo.getLsbD k) else 0
    let bpl := two (atHi.getLsbD k) (atLo.getLsbD k)
    let pixel (d : Sprite) : Nat := if d.xpos.toNat ≤ x ∧ x - d.xpos.toNat < 8
      then two (d.hi.getLsbD (7 - (x - d.xpos.toNat))) (d.lo.getLsbD (7 - (x - d.xpos.toNat))) else 0
    let sprite : Option Sprite := if p.mask.getLsbD 4 = true ∧ (8 ≤ x ∨ p.mask.getLsbD 2 = true)
      then p.sprites.find? (fun d => pixel d != 0) else none
    let background := if bp = 0 then 0 else 4 * bpl + bp
    let offset := if enabled = false then 0 else match sprite with
      | none => background
      | some d => if bp ≠ 0 ∧ d.attr.getLsbD 5 = true then background
        else 4 * (4 + (d.attr &&& 0x03).toNat) + pixel d
    let colour : Colour := (ppuRead s (BitVec.ofNat 14 (0x3F00 + offset))).extractLsb' 0 6
    let draws : Prop := p.scanline < 240 ∧ 1 ≤ p.dot ∧ p.dot ≤ 256
    let fetches (k : Nat) : Bool := rendering && decide (p.dot % 8 = k) &&
      (decide (1 ≤ p.dot ∧ p.dot ≤ 256) || decide (321 ≤ p.dot ∧ p.dot ≤ 336))
    let nametable := (p.v.extractLsb' 10 2).toNat
    let column := (p.v.extractLsb' 0 5).toNat
    let row := (p.v.extractLsb' 5 5).toNat
    let attrByte := ppuRead s (BitVec.ofNat 14 (0x23C0 + nametable * 0x400 + row / 4 * 8 + column / 4))
    let pattern := (if p.ctrl.getLsbD 4 then 0x1000 else 0) + 16 * p.ntLatch.toNat + (p.v.extractLsb' 12 3).toNat
    q.ntLatch = (if fetches 2 then ppuRead s (BitVec.ofNat 14 (0x2000 + nametable * 0x400 + row * 32 + column))
      else p.ntLatch) ∧
    q.atLatch = (if fetches 4 then attrByte.extractLsb' (row / 2 % 2 * 4 + column / 2 % 2 * 2) 2 else p.atLatch) ∧
    q.patLoLatch = (if fetches 6 then ppuRead s (BitVec.ofNat 14 pattern) else p.patLoLatch) ∧
    q.patHiLatch = (if fetches 0 then ppuRead s (BitVec.ofNat 14 (pattern + 8)) else p.patHiLatch) ∧
    q.bgPatLo = patLo ∧ q.bgPatHi = patHi ∧ q.bgAtLo = atLo ∧ q.bgAtHi = atHi ∧
    (∀ i, draws → frameGet q.backFrame i =
      if i = p.scanline * 256 + x then some colour else frameGet p.backFrame i) ∧
    (¬ draws → q.backFrame = p.backFrame) ∧
    q.publishedFrame = (if p.scanline = 240 ∧ p.dot = 0 then p.backFrame else p.publishedFrame) ∧
    (p.scanline ≤ 261 → p.dot ≤ 340 →
      let skip := p.scanline = 261 ∧ p.dot = 339 ∧ p.oddFrame = true ∧ enabled = true
      (skip → q.scanline = 0 ∧ q.dot = 0 ∧ q.oddFrame = false) ∧
      (¬ skip → p.dot < 340 → q.scanline = p.scanline ∧ q.dot = p.dot + 1 ∧ q.oddFrame = p.oddFrame) ∧
      (p.dot = 340 → p.scanline < 261 → q.scanline = p.scanline + 1 ∧ q.dot = 0 ∧ q.oddFrame = p.oddFrame) ∧
      (p.dot = 340 → p.scanline = 261 → q.scanline = 0 ∧ q.dot = 0 ∧ q.oddFrame = !p.oddFrame))

/-- R575, R577, R563 to R567 and R569; the clearing at 261/1 is the spec's decision D46, the evaluation D50, the pixel's dot D49, the hit D51; the dots of the shift and reload behind it are log 19; the row of an entry whose line or sprite size has changed since its evaluation is log 13. -/
def Obligations.VblankAndNmi : Prop :=
  ∀ s : State,
    let p := s.ppu
    let at_ (l d : Nat) : Bool := decide (p.scanline = l ∧ p.dot = d)
    let t := ppuTick s
    let q := shiftAndReload p
    let x := p.dot - 1
    let opaqueAt (d : Sprite) : Bool := decide (d.xpos.toNat ≤ x) && decide (x - d.xpos.toNat < 8) &&
      (d.hi.getLsbD (7 - (x - d.xpos.toNat)) || d.lo.getLsbD (7 - (x - d.xpos.toNat)))
    let height := if p.ctrl.getLsbD 5 then 16 else 8
    let inRange (n : Nat) : Bool := decide ((s.cell .oam (4 * n)).toNat ≤ p.scanline) &&
      decide (p.scanline - (s.cell .oam (4 * n)).toNat < height)
    let hit : Prop := p.scanline < 240 ∧ 1 ≤ p.dot ∧ p.dot ≤ 255 ∧
      p.mask.getLsbD 3 = true ∧ (8 ≤ x ∨ p.mask.getLsbD 1 = true) ∧
      (q.bgPatHi.getLsbD (15 - p.x.toNat) || q.bgPatLo.getLsbD (15 - p.x.toNat)) = true ∧
      p.mask.getLsbD 4 = true ∧ (8 ≤ x ∨ p.mask.getLsbD 2 = true) ∧
      ∃ d, p.sprites.find? opaqueAt = some d ∧ d.id = 0
    let overflow : Prop := p.scanline < 240 ∧ p.dot = 257 ∧ (p.mask.getLsbD 3 || p.mask.getLsbD 4) = true ∧
      8 < ((List.range 64).filter inRange).length
    let rendering : Bool := (decide (p.scanline < 240) || decide (p.scanline = 261)) &&
      (p.mask.getLsbD 3 || p.mask.getLsbD 4)
    let entry (n : Nat) : OamEntry :=
      { n := n
        y := s.cell .oam (4 * n)
        tile := s.cell .oam (4 * n + 1)
        attr := s.cell .oam (4 * n + 2)
        xpos := s.cell .oam (4 * n + 3) }
    let descriptor (e : OamEntry) : Sprite :=
      let down : Int := (p.scanline : Int) - (e.y.toNat : Int)
      let row : Int := if e.attr.getLsbD 7 then (height : Int) - 1 - down else down
      let tile : Int := (e.tile.toNat : Int)
      let address : Int :=
        if p.ctrl.getLsbD 5 then
          tile % 2 * 0x1000 + (if 8 ≤ row then 16 * (tile / 2 * 2 + 1) + (row - 8) else 16 * (tile / 2 * 2) + row)
        else (if p.ctrl.getLsbD 3 then 0x1000 else 0) + 16 * tile + row
      let plane (a : Int) : Byte :=
        let b := ppuRead s (BitVec.ofInt 14 a)
        if e.attr.getLsbD 6 then b.reverse else b
      { id := e.n, xpos := e.xpos, attr := e.attr, lo := plane address, hi := plane (address + 8) }
    t.ppu.secondary = (if rendering && decide (p.dot = 1) then []
      else if rendering && decide (p.scanline < 240 ∧ p.dot = 257)
        then (((List.range 64).filter inRange).take 8).map entry
      else p.secondary) ∧
    t.ppu.sprites = (if rendering && decide (p.dot = 321) then p.secondary.map descriptor else p.sprites) ∧
    t.ppu.vblank = (if at_ 241 1 then true else if at_ 261 1 then false else p.vblank) ∧
    (t.ppu.sprite0Hit = true ↔ at_ 261 1 = false ∧ (p.sprite0Hit = true ∨ hit)) ∧
    (t.ppu.spriteOverflow = true ↔ at_ 261 1 = false ∧ (p.spriteOverflow = true ∨ overflow)) ∧
    t.cpu.nmiPending = (s.cpu.nmiPending || (at_ 241 1 && p.ctrl.getLsbD 7)) ∧
    t.cpu = { s.cpu with nmiPending := t.cpu.nmiPending, irqPending := t.cpu.irqPending }

/-- R571 with R623, R637 and R655, whose order is the spec's decision D32; R580, whose actions write nothing else. -/
def Obligations.ScanlineHook : Prop :=
  ∀ s : State,
    let hook := s.ppu.dot = 260 ∧ (s.ppu.scanline < 240 ∨ s.ppu.scanline = 261) ∧
      (s.ppu.mask.getLsbD 3 || s.ppu.mask.getLsbD 4) = true
    let t := ppuTick s
    (hook → t.mapper = (onScanline s).mapper ∧ t.cpu.irqPending = (onScanline s).cpu.irqPending) ∧
    (¬ hook → t.mapper = s.mapper ∧ t.cpu.irqPending = s.cpu.irqPending) ∧
    (s.mapper.regs = .nrom → onScanline s = s) ∧ (∀ m, s.mapper.regs = .mmc1 m → onScanline s = s) ∧
    (∀ r i, t.cell r i = s.cell r i) ∧
    t = { s with
      ppu := t.ppu
      mapper := { s.mapper with regs := t.mapper.regs }
      cpu := { s.cpu with nmiPending := t.cpu.nmiPending, irqPending := t.cpu.irqPending } }

/-- R559 to R562, and R552 with R580 for their dots and order, the spec's decision D49. -/
def Obligations.ScrollIncrements : Prop :=
  ∀ v t : VramAddr,
    let cx (v : VramAddr) := (v.extractLsb' 0 5).toNat
    let cy (v : VramAddr) := (v.extractLsb' 5 5).toNat
    let fy (v : VramAddr) := (v.extractLsb' 12 3).toNat
    let nx (v : VramAddr) := v.getLsbD 10
    let ny (v : VramAddr) := v.getLsbD 11
    let is (u : VramAddr) (x y f : Nat) (h k : Bool) : Prop := cx u = x ∧ cy u = y ∧ fy u = f ∧ nx u = h ∧ ny u = k
    (if cx v = 31 then is (incCoarseX v) 0 (cy v) (fy v) (!nx v) (ny v)
     else is (incCoarseX v) (cx v + 1) (cy v) (fy v) (nx v) (ny v)) ∧
    (if fy v < 7 then is (incY v) (cx v) (cy v) (fy v + 1) (nx v) (ny v)
     else if cy v = 29 then is (incY v) (cx v) 0 0 (nx v) (!ny v)
     else if cy v = 31 then is (incY v) (cx v) 0 0 (nx v) (ny v)
     else is (incY v) (cx v) (cy v + 1) 0 (nx v) (ny v)) ∧
    is (copyX v t) (cx t) (cy v) (fy v) (nx t) (ny v) ∧ is (copyY v t) (cx v) (cy t) (fy t) (nx v) (ny t) ∧
    ∀ s : State,
      let p := s.ppu
      let q := (ppuTick s).ppu
      let rendering : Prop :=
        (p.scanline < 240 ∨ p.scanline = 261) ∧ (p.mask.getLsbD 3 = true ∨ p.mask.getLsbD 4 = true)
      let v1 := if ((1 ≤ p.dot ∧ p.dot ≤ 256) ∨ (321 ≤ p.dot ∧ p.dot ≤ 336)) ∧ p.dot % 8 = 0 then incCoarseX p.v else p.v
      let v2 := if p.dot = 256 then incY v1 else v1
      let v3 := if p.dot = 257 then copyX v2 p.t else v2
      let v4 := if p.scanline = 261 ∧ 280 ≤ p.dot ∧ p.dot ≤ 304 then copyY v3 p.t else v3
      (rendering → q.v = v4) ∧ (¬ rendering → q.v = p.v) ∧
      q.t = p.t ∧ q.x = p.x ∧ q.w = p.w ∧ q.ctrl = p.ctrl ∧ q.mask = p.mask ∧ q.oamAddr = p.oamAddr ∧
      q.readBuffer = p.readBuffer ∧ q.ioLatch = p.ioLatch

/-- R525 to R527; that every bit reads back is the spec's decision D56. -/
def Obligations.OamRoundTrip : Prop :=
  ∀ (a d : Byte) (s : State),
    let t := busWrite 0x2004 d (busWrite 0x2003 a s)
    let r := busRead 0x2004 (busWrite 0x2003 a t)
    t.ppu.oamAddr = a + 1 ∧ r.1 = d ∧ r.2.ppu.oamAddr = a ∧
    ∀ q i, ¬ (q = .oam ∧ i = a.toNat) → r.2.cell q i = s.cell q i

/-- R520 to R533 and R576 with R78 (the stored byte: StoreMap); the I/O latch is the spec's decision D41, t, x and w D40, the palette read D42, the NMI on enabling D47, the plain increment D55, OAM D56; that a read of ports 2, 4 and 7 sets the I/O latch is log 18. -/
def Obligations.PortSideEffects : Prop :=
  ∀ (a : Word) (s : State), 0x2000 ≤ a.toNat → a.toNat < 0x4000 →
    let r := busRead a s
    let p := s.ppu
    let va : PpuAddr := p.v.setWidth 14
    let vNext : VramAddr := p.v + (if p.ctrl.getLsbD 2 then 32 else 1)
    (a.toNat % 8 = 2 →
      r.1.getLsbD 7 = p.vblank ∧ r.1.getLsbD 6 = p.sprite0Hit ∧ r.1.getLsbD 5 = p.spriteOverflow ∧
      r.1 &&& 0x1F = p.ioLatch &&& 0x1F ∧
      r.2 = { s with busLatch := r.1, ppu := { p with vblank := false, w := false, ioLatch := r.1 } }) ∧
    (a.toNat % 8 = 4 →
      r.1 = s.cell .oam p.oamAddr.toNat ∧ r.2 = { s with busLatch := r.1, ppu := { p with ioLatch := r.1 } }) ∧
    (a.toNat % 8 = 7 →
      (va.toNat < 0x3F00 → r.1 = p.readBuffer ∧ r.2.ppu.readBuffer = ppuRead s va) ∧
      (0x3F00 ≤ va.toNat → r.1 = ppuRead s va ∧ r.2.ppu.readBuffer = ppuRead s (va - 0x1000#14)) ∧
      r.2 = { s with
        busLatch := r.1
        ppu := { p with readBuffer := r.2.ppu.readBuffer, ioLatch := r.1, v := vNext } }) ∧
    (a.toNat % 8 ∈ [0, 1, 3, 5, 6] → r = (p.ioLatch, { s with busLatch := p.ioLatch })) ∧
    ∀ d : Byte,
      let t := busWrite a d s
      let wrote (q : Ppu) : State := { s with busLatch := d, ppu := { q with ioLatch := d } }
      (a.toNat % 8 = 0 →
        t = { wrote { p with
                ctrl := d
                t := p.t.extractLsb' 12 3 ++ d.extractLsb' 0 2 ++ p.t.extractLsb' 0 10 } with
              cpu := { s.cpu with
                nmiPending := s.cpu.nmiPending || (!p.ctrl.getLsbD 7 && d.getLsbD 7 && p.vblank) } }) ∧
      (a.toNat % 8 = 1 → t = wrote { p with mask := d }) ∧
      (a.toNat % 8 = 2 → t = wrote p) ∧
      (a.toNat % 8 = 3 → t = wrote { p with oamAddr := d }) ∧
      (a.toNat % 8 = 4 → t = wrote { p with oam := t.ppu.oam, oamAddr := p.oamAddr + 1 }) ∧
      (a.toNat % 8 = 5 → p.w = false →
        t = wrote { p with
          t := p.t.extractLsb' 5 10 ++ d.extractLsb' 3 5
          x := d.extractLsb' 0 3
          w := true }) ∧
      (a.toNat % 8 = 5 → p.w = true →
        t = wrote { p with
          t := d.extractLsb' 0 3 ++ p.t.extractLsb' 10 2 ++ d.extractLsb' 3 5 ++ p.t.extractLsb' 0 5
          w := false }) ∧
      (a.toNat % 8 = 6 → p.w = false →
        t = wrote { p with t := 0#1 ++ d.extractLsb' 0 6 ++ p.t.extractLsb' 0 8, w := true }) ∧
      (a.toNat % 8 = 6 → p.w = true →
        t = wrote { p with t := p.t.extractLsb' 8 7 ++ d, v := p.t.extractLsb' 8 7 ++ d, w := false }) ∧
      (a.toNat % 8 = 7 →
        t = { wrote { p with vram := t.ppu.vram, palette := t.ppu.palette, v := vNext } with
              mapper := { s.mapper with chrRam := t.mapper.chrRam } })

/-- R540 to R542, the spec's decisions D43 to D45; R603, R605, R613, R621, R622, R632, R635, R646, R647, its decisions D27, D30 and D31; the fixed-bank variant's bank with more than one CHR page is log 14. -/
def Obligations.PpuBusReadsBack : Prop :=
  ∀ (a c : PpuAddr) (d : Byte) (s : State),
    let cart := s.launch.cart
    let units := max 1 cart.chrPages
    (a.toNat < 0x2000 →
      let chr : Region := if cart.chrPages = 0 then .chrRam else .chrRom
      let k := a.toNat / 0x400
      let cell := match s.mapper.regs with
        | .nrom => a.toNat
        | .mmc1 m =>
          let bank := if m.control.getLsbD 4 then (if k < 4 then m.chr0.toNat else m.chr1.toNat)
            else m.chr0.toNat / 2 * 2 + k / 4
          bank % (2 * units) * 0x1000 + a.toNat % 0x1000
        | .mmc3 m =>
          let windows := [m.r0 &&& 0xFE, m.r0 ||| 1, m.r1 &&& 0xFE, m.r1 ||| 1, m.r2, m.r3, m.r4, m.r5]
          let bank := (windows.getD (if m.bankSelect.getLsbD 7 then (k + 4) % 8 else k) 0).toNat
          bank % (8 * units) * 0x400 + a.toNat % 0x400
      ppuRead s a = s.cell chr cell ∧
      (∀ q i, (ppuWrite s a d).cell q i = if q = .chrRam ∧ cart.chrPages = 0 ∧ i = cell then d else s.cell q i)) ∧
    (mirroring cart s.mapper.regs =
      if cart.fourScreen then .fourScreen
      else match s.mapper.regs with
        | .nrom => if cart.mirroringFlag then .vertical else .horizontal
        | .mmc1 m =>
          if m.control.toNat % 4 = 0 then .oneScreenLower
          else if m.control.toNat % 4 = 1 then .oneScreenUpper
          else if m.control.toNat % 4 = 2 then .vertical
          else .horizontal
        | .mmc3 m => if m.mirrorBit then .horizontal else .vertical) ∧
    (0x3F00 ≤ a.toNat →
      let entry (x : PpuAddr) : Nat := if x.toNat % 4 = 0 then x.toNat % 16 else x.toNat % 32
      ppuRead s a = s.cell .palette (entry a) &&& 0x3F ∧
      (∀ q i, (ppuWrite s a d).cell q i = if q = .palette ∧ i = entry a then d &&& 0x3F else s.cell q i) ∧
      (0x3F00 ≤ c.toNat → ppuRead (ppuWrite s a d) c = if entry a = entry c then d &&& 0x3F else ppuRead s c)) ∧
    (0x2000 ≤ a.toNat → a.toNat < 0x3F00 →
      let place (x : PpuAddr) : Nat :=
        let n := x.toNat / 0x400 % 4
        let o := x.toNat % 0x400
        match mirroring cart s.mapper.regs with
        | .horizontal => n / 2 * 0x400 + o
        | .vertical => n % 2 * 0x400 + o
        | .oneScreenLower => o
        | .oneScreenUpper => 0x400 + o
        | .fourScreen => n * 0x400 + o
      ppuRead s a = s.cell .vram (place a) ∧
      (∀ q i, (ppuWrite s a d).cell q i = if q = .vram ∧ i = place a then d else s.cell q i) ∧
      (0x2000 ≤ c.toNat → c.toNat < 0x3F00 →
        ppuRead (ppuWrite s a d) c = if place a = place c then d else ppuRead s c))

/-- R620. -/
def Obligations.FixedBankWindows : Prop :=
  ∀ (a : Word) (s : State), s.mapper.regs = .nrom → 0x8000 ≤ a.toNat →
    let bank := if a.toNat < 0xC000 then 0 else if 2 ≤ s.launch.cart.prgPages then s.launch.cart.prgPages - 1 else 0
    (busRead a s).1 = s.cell .prgRom (bank * 0x4000 + a.toNat % 0x4000)

/-- R633 and R644 with R605; the tables are the spec's decisions D30 and D31; PRG modes 0 and 1 with an odd page count are log 20, a bank number modulo 0 pages is log 16. -/
def Obligations.BankedPrgWindows : Prop :=
  ∀ (a : Word) (s : State), 0x8000 ≤ a.toNat →
    let pages := s.launch.cart.prgPages
    (∀ m, s.mapper.regs = .mmc1 m →
      let b := m.prg.toNat % 16
      let mode := m.control.toNat / 4 % 4
      let bank := if a.toNat < 0xC000
        then (if mode ≤ 1 then b / 2 * 2 else if mode = 2 then 0 else b)
        else (if mode ≤ 1 then b / 2 * 2 + 1 else if mode = 2 then b else pages - 1)
      (busRead a s).1 = s.cell .prgRom (bank % pages * 0x4000 + a.toNat % 0x4000)) ∧
    (∀ m, s.mapper.regs = .mmc3 m →
      let n8 := 2 * pages
      let swap := m.bankSelect.getLsbD 6
      let bank := if a.toNat < 0xA000 then (if swap then n8 - 2 else m.r6.toNat)
        else if a.toNat < 0xC000 then m.r7.toNat
        else if a.toNat < 0xE000 then (if swap then m.r6.toNat else n8 - 2)
        else n8 - 1
      (busRead a s).1 = s.cell .prgRom (bank % n8 * 0x2000 + a.toNat % 0x2000))

/-- R631; the reset write's PRG mode 3 is the spec's decision D29. -/
def Obligations.SerialProtocol : Prop :=
  ∀ (m : Mmc1) (a1 a2 a3 a4 a5 : Word) (d1 d2 d3 d4 d5 : Byte),
    (m.count = 0 → d1.getLsbD 7 = false → d2.getLsbD 7 = false → d3.getLsbD 7 = false → d4.getLsbD 7 = false →
      d5.getLsbD 7 = false →
      let bit (d : Byte) : Nat := if d.getLsbD 0 then 1 else 0
      let v : BitVec 5 := BitVec.ofNat 5 (bit d1 + 2 * bit d2 + 4 * bit d3 + 8 * bit d4 + 16 * bit d5)
      let k := a5.toNat / 0x2000 % 4
      ((((m.write a1 d1).write a2 d2).write a3 d3).write a4 d4).write a5 d5 =
        { shift := 0
          count := 0
          control := if k = 0 then v else m.control
          chr0 := if k = 1 then v else m.chr0
          chr1 := if k = 2 then v else m.chr1
          prg := if k = 3 then v else m.prg }) ∧
    (d1.getLsbD 7 = true → m.write a1 d1 = { m with shift := 0, count := 0, control := m.control ||| 0x0C })

/-- R655 and its property; the order of reload, decrement and test is the spec's decision D32. -/
def Obligations.ScanlineIrqCount : Prop :=
  ∀ (s : State) (m : Mmc3) (k : Nat), s.mapper.regs = .mmc3 m →
    (let counter : Byte := if m.irqCounter = 0 ∨ m.irqReload = true then m.irqLatch else m.irqCounter - 1
     onScanline s = { s with
       mapper := { s.mapper with regs := .mmc3 { m with irqCounter := counter, irqReload := false } }
       cpu := { s.cpu with irqPending := s.cpu.irqPending || (decide (counter = 0) && m.irqEnabled) } }) ∧
    (m.irqCounter = 0 ∨ m.irqReload = true → m.irqEnabled = true →
      (k ≤ m.irqLatch.toNat → (onScanline^[k] s).cpu.irqPending = s.cpu.irqPending) ∧
      (onScanline^[m.irqLatch.toNat + 1] s).cpu.irqPending = true) ∧
    (m.irqEnabled = false → (onScanline^[k] s).cpu.irqPending = s.cpu.irqPending)

/-- R600 to R602; the header's reading is the spec's decisions D28 and D59; malformed before unsupported, trailing bytes ignored and the empty expansion buffer are log 17, how a ROM is held log 5. -/
def Obligations.ImageLoads : Prop :=
  ∀ img : List Byte,
    let body := 16 + (if (imageByte img 6).getLsbD 2 then 512 else 0)
    let prg := (imageByte img 4).toNat * 16384
    let chr := (imageByte img 5).toNat * 8192
    let n : Byte := (imageByte img 7 &&& 0xF0) ||| (imageByte img 6 >>> 4)
    let wellFormed := img.take 4 = [0x4E, 0x45, 0x53, 0x1A] ∧ imageByte img 7 &&& 0x0C = 0 ∧ imageByte img 4 ≠ 0 ∧
      body + prg + chr ≤ img.length
    (¬ wellFormed → loadImage img = .error .loadMalformedRom) ∧
    (wellFormed → n ≠ 0 → n ≠ 1 → n ≠ 4 → loadImage img = .error (.loadUnsupportedMapper n)) ∧
    (wellFormed → n = 0 ∨ n = 1 ∨ n = 4 → ∃ c, loadImage img = .ok c ∧
      c.mapperNumber = n ∧ c.prgPages = (imageByte img 4).toNat ∧ c.chrPages = (imageByte img 5).toNat ∧
      c.mirroringFlag = (imageByte img 6).getLsbD 0 ∧ c.hasPrgRam = (imageByte img 6).getLsbD 1 ∧
      c.hasTrainer = (imageByte img 6).getLsbD 2 ∧ c.fourScreen = (imageByte img 6).getLsbD 3 ∧
      c.trainer.length = (if c.hasTrainer then 512 else 0) ∧
      (∀ i, i < c.trainer.length → c.trainer.getD i 0 = imageByte img (16 + i)) ∧ c.expansion = [] ∧
      (∀ i, i < prg → memRead .prgRom c.prgRom i = imageByte img (body + i)) ∧
      (∀ i, i < chr → memRead .chrRom c.chrRom i = imageByte img (body + prg + i)))

/-- An invariant of every step; 6-bit palette entries are the spec's decision D43 (R542); the canonical form of a memory, the list of a ROM's nonzero bytes and the falling frame list are the model's choices of logs 2, 5 and 4. -/
def Obligations.MemoriesStayCanonical : Prop :=
  ∀ s t : State, Safety.memoriesOk s = true → step s = .next t → Safety.memoriesOk t = true

/-- R40's bound is the spec's derivation; R500's ranges are its decision D40; R602 and R630. -/
def Obligations.CountersStayInRange : Prop :=
  ∀ s t : State, Safety.countersOk s = true → step s = .next t → Safety.countersOk t = true

/-- R600 (buffers are immutable after construction) and R615, over every step. -/
def Obligations.CartridgeImmutable : Prop :=
  ∀ s t : State, step s = .next t → t.launch = s.launch ∧
    (∀ i, t.cell .prgRom i = s.cell .prgRom i) ∧ ∀ i, t.cell .chrRom i = s.cell .chrRom i

/-- The base case of MemoriesStayCanonical and CountersStayInRange; the reset state is log 1's launch, the canonical forms are logs 2, 4 and 5. -/
def Obligations.ResetMeetsInvariants : Prop :=
  Safety.memoriesOk State.reset = true ∧ Safety.countersOk State.reset = true
end

