-- ==== Sys2Proof/Laws/State.lean ====
section
/-! SUPPORT. One lemma per field per named update of the state, true by unfolding the update once. -/

namespace Sys2Proof.Machine

variable (s : State)

@[simp] theorem State.setA_cpu (v : Byte) : (s.setA v).cpu = { s.cpu with a := v } := rfl
@[simp] theorem State.setA_ram (v : Byte) : (s.setA v).ram = s.ram := rfl
@[simp] theorem State.setA_busLatch (v : Byte) : (s.setA v).busLatch = s.busLatch := rfl
@[simp] theorem State.setA_ppu (v : Byte) : (s.setA v).ppu = s.ppu := rfl
@[simp] theorem State.setA_mapper (v : Byte) : (s.setA v).mapper = s.mapper := rfl
@[simp] theorem State.setA_launch (v : Byte) : (s.setA v).launch = s.launch := rfl
@[simp] theorem State.setA_hostRequest (v : Byte) : (s.setA v).hostRequest = s.hostRequest := rfl
@[simp] theorem State.setA_shutdown (v : Byte) : (s.setA v).shutdown = s.shutdown := rfl
@[simp] theorem State.setA_faults (v : Byte) : (s.setA v).faults = s.faults := rfl
@[simp] theorem State.setA_stopped (v : Byte) : (s.setA v).stopped = s.stopped := rfl
@[simp] theorem State.setA_mem (v : Byte) (r : Region) : (s.setA v).mem r = s.mem r := by cases r <;> rfl
@[simp] theorem State.setA_cell (v : Byte) (r : Region) (i : Nat) : (s.setA v).cell r i = s.cell r i := by
  simp only [State.cell, State.setA_mem]

@[simp] theorem State.setX_cpu (v : Byte) : (s.setX v).cpu = { s.cpu with x := v } := rfl
@[simp] theorem State.setX_ram (v : Byte) : (s.setX v).ram = s.ram := rfl
@[simp] theorem State.setX_busLatch (v : Byte) : (s.setX v).busLatch = s.busLatch := rfl
@[simp] theorem State.setX_ppu (v : Byte) : (s.setX v).ppu = s.ppu := rfl
@[simp] theorem State.setX_mapper (v : Byte) : (s.setX v).mapper = s.mapper := rfl
@[simp] theorem State.setX_launch (v : Byte) : (s.setX v).launch = s.launch := rfl
@[simp] theorem State.setX_hostRequest (v : Byte) : (s.setX v).hostRequest = s.hostRequest := rfl
@[simp] theorem State.setX_shutdown (v : Byte) : (s.setX v).shutdown = s.shutdown := rfl
@[simp] theorem State.setX_faults (v : Byte) : (s.setX v).faults = s.faults := rfl
@[simp] theorem State.setX_stopped (v : Byte) : (s.setX v).stopped = s.stopped := rfl
@[simp] theorem State.setX_mem (v : Byte) (r : Region) : (s.setX v).mem r = s.mem r := by cases r <;> rfl
@[simp] theorem State.setX_cell (v : Byte) (r : Region) (i : Nat) : (s.setX v).cell r i = s.cell r i := by
  simp only [State.cell, State.setX_mem]

@[simp] theorem State.setY_cpu (v : Byte) : (s.setY v).cpu = { s.cpu with y := v } := rfl
@[simp] theorem State.setY_ram (v : Byte) : (s.setY v).ram = s.ram := rfl
@[simp] theorem State.setY_busLatch (v : Byte) : (s.setY v).busLatch = s.busLatch := rfl
@[simp] theorem State.setY_ppu (v : Byte) : (s.setY v).ppu = s.ppu := rfl
@[simp] theorem State.setY_mapper (v : Byte) : (s.setY v).mapper = s.mapper := rfl
@[simp] theorem State.setY_launch (v : Byte) : (s.setY v).launch = s.launch := rfl
@[simp] theorem State.setY_hostRequest (v : Byte) : (s.setY v).hostRequest = s.hostRequest := rfl
@[simp] theorem State.setY_shutdown (v : Byte) : (s.setY v).shutdown = s.shutdown := rfl
@[simp] theorem State.setY_faults (v : Byte) : (s.setY v).faults = s.faults := rfl
@[simp] theorem State.setY_stopped (v : Byte) : (s.setY v).stopped = s.stopped := rfl
@[simp] theorem State.setY_mem (v : Byte) (r : Region) : (s.setY v).mem r = s.mem r := by cases r <;> rfl
@[simp] theorem State.setY_cell (v : Byte) (r : Region) (i : Nat) : (s.setY v).cell r i = s.cell r i := by
  simp only [State.cell, State.setY_mem]

@[simp] theorem State.setS_cpu (v : Byte) : (s.setS v).cpu = { s.cpu with s := v } := rfl
@[simp] theorem State.setS_ram (v : Byte) : (s.setS v).ram = s.ram := rfl
@[simp] theorem State.setS_busLatch (v : Byte) : (s.setS v).busLatch = s.busLatch := rfl
@[simp] theorem State.setS_ppu (v : Byte) : (s.setS v).ppu = s.ppu := rfl
@[simp] theorem State.setS_mapper (v : Byte) : (s.setS v).mapper = s.mapper := rfl
@[simp] theorem State.setS_launch (v : Byte) : (s.setS v).launch = s.launch := rfl
@[simp] theorem State.setS_hostRequest (v : Byte) : (s.setS v).hostRequest = s.hostRequest := rfl
@[simp] theorem State.setS_shutdown (v : Byte) : (s.setS v).shutdown = s.shutdown := rfl
@[simp] theorem State.setS_faults (v : Byte) : (s.setS v).faults = s.faults := rfl
@[simp] theorem State.setS_stopped (v : Byte) : (s.setS v).stopped = s.stopped := rfl
@[simp] theorem State.setS_mem (v : Byte) (r : Region) : (s.setS v).mem r = s.mem r := by cases r <;> rfl
@[simp] theorem State.setS_cell (v : Byte) (r : Region) (i : Nat) : (s.setS v).cell r i = s.cell r i := by
  simp only [State.cell, State.setS_mem]

@[simp] theorem State.setPc_cpu (w : Word) : (s.setPc w).cpu = { s.cpu with pc := w } := rfl
@[simp] theorem State.setPc_ram (w : Word) : (s.setPc w).ram = s.ram := rfl
@[simp] theorem State.setPc_busLatch (w : Word) : (s.setPc w).busLatch = s.busLatch := rfl
@[simp] theorem State.setPc_ppu (w : Word) : (s.setPc w).ppu = s.ppu := rfl
@[simp] theorem State.setPc_mapper (w : Word) : (s.setPc w).mapper = s.mapper := rfl
@[simp] theorem State.setPc_launch (w : Word) : (s.setPc w).launch = s.launch := rfl
@[simp] theorem State.setPc_hostRequest (w : Word) : (s.setPc w).hostRequest = s.hostRequest := rfl
@[simp] theorem State.setPc_shutdown (w : Word) : (s.setPc w).shutdown = s.shutdown := rfl
@[simp] theorem State.setPc_faults (w : Word) : (s.setPc w).faults = s.faults := rfl
@[simp] theorem State.setPc_stopped (w : Word) : (s.setPc w).stopped = s.stopped := rfl
@[simp] theorem State.setPc_mem (w : Word) (r : Region) : (s.setPc w).mem r = s.mem r := by cases r <;> rfl
@[simp] theorem State.setPc_cell (w : Word) (r : Region) (i : Nat) : (s.setPc w).cell r i = s.cell r i := by
  simp only [State.cell, State.setPc_mem]

@[simp] theorem State.setC_cpu (b : Bool) : (s.setC b).cpu = { s.cpu with c := b } := rfl
@[simp] theorem State.setC_ram (b : Bool) : (s.setC b).ram = s.ram := rfl
@[simp] theorem State.setC_busLatch (b : Bool) : (s.setC b).busLatch = s.busLatch := rfl
@[simp] theorem State.setC_ppu (b : Bool) : (s.setC b).ppu = s.ppu := rfl
@[simp] theorem State.setC_mapper (b : Bool) : (s.setC b).mapper = s.mapper := rfl
@[simp] theorem State.setC_launch (b : Bool) : (s.setC b).launch = s.launch := rfl
@[simp] theorem State.setC_hostRequest (b : Bool) : (s.setC b).hostRequest = s.hostRequest := rfl
@[simp] theorem State.setC_shutdown (b : Bool) : (s.setC b).shutdown = s.shutdown := rfl
@[simp] theorem State.setC_faults (b : Bool) : (s.setC b).faults = s.faults := rfl
@[simp] theorem State.setC_stopped (b : Bool) : (s.setC b).stopped = s.stopped := rfl
@[simp] theorem State.setC_mem (b : Bool) (r : Region) : (s.setC b).mem r = s.mem r := by cases r <;> rfl
@[simp] theorem State.setC_cell (b : Bool) (r : Region) (i : Nat) : (s.setC b).cell r i = s.cell r i := by
  simp only [State.cell, State.setC_mem]

@[simp] theorem State.setZ_cpu (b : Bool) : (s.setZ b).cpu = { s.cpu with z := b } := rfl
@[simp] theorem State.setZ_ram (b : Bool) : (s.setZ b).ram = s.ram := rfl
@[simp] theorem State.setZ_busLatch (b : Bool) : (s.setZ b).busLatch = s.busLatch := rfl
@[simp] theorem State.setZ_ppu (b : Bool) : (s.setZ b).ppu = s.ppu := rfl
@[simp] theorem State.setZ_mapper (b : Bool) : (s.setZ b).mapper = s.mapper := rfl
@[simp] theorem State.setZ_launch (b : Bool) : (s.setZ b).launch = s.launch := rfl
@[simp] theorem State.setZ_hostRequest (b : Bool) : (s.setZ b).hostRequest = s.hostRequest := rfl
@[simp] theorem State.setZ_shutdown (b : Bool) : (s.setZ b).shutdown = s.shutdown := rfl
@[simp] theorem State.setZ_faults (b : Bool) : (s.setZ b).faults = s.faults := rfl
@[simp] theorem State.setZ_stopped (b : Bool) : (s.setZ b).stopped = s.stopped := rfl
@[simp] theorem State.setZ_mem (b : Bool) (r : Region) : (s.setZ b).mem r = s.mem r := by cases r <;> rfl
@[simp] theorem State.setZ_cell (b : Bool) (r : Region) (i : Nat) : (s.setZ b).cell r i = s.cell r i := by
  simp only [State.cell, State.setZ_mem]

@[simp] theorem State.setI_cpu (b : Bool) : (s.setI b).cpu = { s.cpu with i := b } := rfl
@[simp] theorem State.setI_ram (b : Bool) : (s.setI b).ram = s.ram := rfl
@[simp] theorem State.setI_busLatch (b : Bool) : (s.setI b).busLatch = s.busLatch := rfl
@[simp] theorem State.setI_ppu (b : Bool) : (s.setI b).ppu = s.ppu := rfl
@[simp] theorem State.setI_mapper (b : Bool) : (s.setI b).mapper = s.mapper := rfl
@[simp] theorem State.setI_launch (b : Bool) : (s.setI b).launch = s.launch := rfl
@[simp] theorem State.setI_hostRequest (b : Bool) : (s.setI b).hostRequest = s.hostRequest := rfl
@[simp] theorem State.setI_shutdown (b : Bool) : (s.setI b).shutdown = s.shutdown := rfl
@[simp] theorem State.setI_faults (b : Bool) : (s.setI b).faults = s.faults := rfl
@[simp] theorem State.setI_stopped (b : Bool) : (s.setI b).stopped = s.stopped := rfl
@[simp] theorem State.setI_mem (b : Bool) (r : Region) : (s.setI b).mem r = s.mem r := by cases r <;> rfl
@[simp] theorem State.setI_cell (b : Bool) (r : Region) (i : Nat) : (s.setI b).cell r i = s.cell r i := by
  simp only [State.cell, State.setI_mem]

@[simp] theorem State.setD_cpu (b : Bool) : (s.setD b).cpu = { s.cpu with d := b } := rfl
@[simp] theorem State.setD_ram (b : Bool) : (s.setD b).ram = s.ram := rfl
@[simp] theorem State.setD_busLatch (b : Bool) : (s.setD b).busLatch = s.busLatch := rfl
@[simp] theorem State.setD_ppu (b : Bool) : (s.setD b).ppu = s.ppu := rfl
@[simp] theorem State.setD_mapper (b : Bool) : (s.setD b).mapper = s.mapper := rfl
@[simp] theorem State.setD_launch (b : Bool) : (s.setD b).launch = s.launch := rfl
@[simp] theorem State.setD_hostRequest (b : Bool) : (s.setD b).hostRequest = s.hostRequest := rfl
@[simp] theorem State.setD_shutdown (b : Bool) : (s.setD b).shutdown = s.shutdown := rfl
@[simp] theorem State.setD_faults (b : Bool) : (s.setD b).faults = s.faults := rfl
@[simp] theorem State.setD_stopped (b : Bool) : (s.setD b).stopped = s.stopped := rfl
@[simp] theorem State.setD_mem (b : Bool) (r : Region) : (s.setD b).mem r = s.mem r := by cases r <;> rfl
@[simp] theorem State.setD_cell (b : Bool) (r : Region) (i : Nat) : (s.setD b).cell r i = s.cell r i := by
  simp only [State.cell, State.setD_mem]

@[simp] theorem State.setV_cpu (b : Bool) : (s.setV b).cpu = { s.cpu with v := b } := rfl
@[simp] theorem State.setV_ram (b : Bool) : (s.setV b).ram = s.ram := rfl
@[simp] theorem State.setV_busLatch (b : Bool) : (s.setV b).busLatch = s.busLatch := rfl
@[simp] theorem State.setV_ppu (b : Bool) : (s.setV b).ppu = s.ppu := rfl
@[simp] theorem State.setV_mapper (b : Bool) : (s.setV b).mapper = s.mapper := rfl
@[simp] theorem State.setV_launch (b : Bool) : (s.setV b).launch = s.launch := rfl
@[simp] theorem State.setV_hostRequest (b : Bool) : (s.setV b).hostRequest = s.hostRequest := rfl
@[simp] theorem State.setV_shutdown (b : Bool) : (s.setV b).shutdown = s.shutdown := rfl
@[simp] theorem State.setV_faults (b : Bool) : (s.setV b).faults = s.faults := rfl
@[simp] theorem State.setV_stopped (b : Bool) : (s.setV b).stopped = s.stopped := rfl
@[simp] theorem State.setV_mem (b : Bool) (r : Region) : (s.setV b).mem r = s.mem r := by cases r <;> rfl
@[simp] theorem State.setV_cell (b : Bool) (r : Region) (i : Nat) : (s.setV b).cell r i = s.cell r i := by
  simp only [State.cell, State.setV_mem]

@[simp] theorem State.setN_cpu (b : Bool) : (s.setN b).cpu = { s.cpu with n := b } := rfl
@[simp] theorem State.setN_ram (b : Bool) : (s.setN b).ram = s.ram := rfl
@[simp] theorem State.setN_busLatch (b : Bool) : (s.setN b).busLatch = s.busLatch := rfl
@[simp] theorem State.setN_ppu (b : Bool) : (s.setN b).ppu = s.ppu := rfl
@[simp] theorem State.setN_mapper (b : Bool) : (s.setN b).mapper = s.mapper := rfl
@[simp] theorem State.setN_launch (b : Bool) : (s.setN b).launch = s.launch := rfl
@[simp] theorem State.setN_hostRequest (b : Bool) : (s.setN b).hostRequest = s.hostRequest := rfl
@[simp] theorem State.setN_shutdown (b : Bool) : (s.setN b).shutdown = s.shutdown := rfl
@[simp] theorem State.setN_faults (b : Bool) : (s.setN b).faults = s.faults := rfl
@[simp] theorem State.setN_stopped (b : Bool) : (s.setN b).stopped = s.stopped := rfl
@[simp] theorem State.setN_mem (b : Bool) (r : Region) : (s.setN b).mem r = s.mem r := by cases r <;> rfl
@[simp] theorem State.setN_cell (b : Bool) (r : Region) (i : Nat) : (s.setN b).cell r i = s.cell r i := by
  simp only [State.cell, State.setN_mem]

@[simp] theorem State.setNZ_cpu (v : Byte) : (s.setNZ v).cpu = { s.cpu with n := bit v 7, z := v == 0 } := rfl
@[simp] theorem State.setNZ_ram (v : Byte) : (s.setNZ v).ram = s.ram := rfl
@[simp] theorem State.setNZ_busLatch (v : Byte) : (s.setNZ v).busLatch = s.busLatch := rfl
@[simp] theorem State.setNZ_ppu (v : Byte) : (s.setNZ v).ppu = s.ppu := rfl
@[simp] theorem State.setNZ_mapper (v : Byte) : (s.setNZ v).mapper = s.mapper := rfl
@[simp] theorem State.setNZ_launch (v : Byte) : (s.setNZ v).launch = s.launch := rfl
@[simp] theorem State.setNZ_hostRequest (v : Byte) : (s.setNZ v).hostRequest = s.hostRequest := rfl
@[simp] theorem State.setNZ_shutdown (v : Byte) : (s.setNZ v).shutdown = s.shutdown := rfl
@[simp] theorem State.setNZ_faults (v : Byte) : (s.setNZ v).faults = s.faults := rfl
@[simp] theorem State.setNZ_stopped (v : Byte) : (s.setNZ v).stopped = s.stopped := rfl
@[simp] theorem State.setNZ_mem (v : Byte) (r : Region) : (s.setNZ v).mem r = s.mem r := by cases r <;> rfl
@[simp] theorem State.setNZ_cell (v : Byte) (r : Region) (i : Nat) : (s.setNZ v).cell r i = s.cell r i := by
  simp only [State.cell, State.setNZ_mem]

@[simp] theorem State.setSleep_cpu (k : Nat) : (s.setSleep k).cpu = { s.cpu with sleep := k } := rfl
@[simp] theorem State.setSleep_ram (k : Nat) : (s.setSleep k).ram = s.ram := rfl
@[simp] theorem State.setSleep_busLatch (k : Nat) : (s.setSleep k).busLatch = s.busLatch := rfl
@[simp] theorem State.setSleep_ppu (k : Nat) : (s.setSleep k).ppu = s.ppu := rfl
@[simp] theorem State.setSleep_mapper (k : Nat) : (s.setSleep k).mapper = s.mapper := rfl
@[simp] theorem State.setSleep_launch (k : Nat) : (s.setSleep k).launch = s.launch := rfl
@[simp] theorem State.setSleep_hostRequest (k : Nat) : (s.setSleep k).hostRequest = s.hostRequest := rfl
@[simp] theorem State.setSleep_shutdown (k : Nat) : (s.setSleep k).shutdown = s.shutdown := rfl
@[simp] theorem State.setSleep_faults (k : Nat) : (s.setSleep k).faults = s.faults := rfl
@[simp] theorem State.setSleep_stopped (k : Nat) : (s.setSleep k).stopped = s.stopped := rfl
@[simp] theorem State.setSleep_mem (k : Nat) (r : Region) : (s.setSleep k).mem r = s.mem r := by cases r <;> rfl
@[simp] theorem State.setSleep_cell (k : Nat) (r : Region) (i : Nat) : (s.setSleep k).cell r i = s.cell r i := by
  simp only [State.cell, State.setSleep_mem]

@[simp] theorem State.setNmi_cpu (b : Bool) : (s.setNmi b).cpu = { s.cpu with nmiPending := b } := rfl
@[simp] theorem State.setNmi_ram (b : Bool) : (s.setNmi b).ram = s.ram := rfl
@[simp] theorem State.setNmi_busLatch (b : Bool) : (s.setNmi b).busLatch = s.busLatch := rfl
@[simp] theorem State.setNmi_ppu (b : Bool) : (s.setNmi b).ppu = s.ppu := rfl
@[simp] theorem State.setNmi_mapper (b : Bool) : (s.setNmi b).mapper = s.mapper := rfl
@[simp] theorem State.setNmi_launch (b : Bool) : (s.setNmi b).launch = s.launch := rfl
@[simp] theorem State.setNmi_hostRequest (b : Bool) : (s.setNmi b).hostRequest = s.hostRequest := rfl
@[simp] theorem State.setNmi_shutdown (b : Bool) : (s.setNmi b).shutdown = s.shutdown := rfl
@[simp] theorem State.setNmi_faults (b : Bool) : (s.setNmi b).faults = s.faults := rfl
@[simp] theorem State.setNmi_stopped (b : Bool) : (s.setNmi b).stopped = s.stopped := rfl
@[simp] theorem State.setNmi_mem (b : Bool) (r : Region) : (s.setNmi b).mem r = s.mem r := by cases r <;> rfl
@[simp] theorem State.setNmi_cell (b : Bool) (r : Region) (i : Nat) : (s.setNmi b).cell r i = s.cell r i := by
  simp only [State.cell, State.setNmi_mem]

@[simp] theorem State.setUnsupported_cpu (u : Option UnsupportedOp) : (s.setUnsupported u).cpu = { s.cpu with unsupportedSeen := u } := rfl
@[simp] theorem State.setUnsupported_ram (u : Option UnsupportedOp) : (s.setUnsupported u).ram = s.ram := rfl
@[simp] theorem State.setUnsupported_busLatch (u : Option UnsupportedOp) : (s.setUnsupported u).busLatch = s.busLatch := rfl
@[simp] theorem State.setUnsupported_ppu (u : Option UnsupportedOp) : (s.setUnsupported u).ppu = s.ppu := rfl
@[simp] theorem State.setUnsupported_mapper (u : Option UnsupportedOp) : (s.setUnsupported u).mapper = s.mapper := rfl
@[simp] theorem State.setUnsupported_launch (u : Option UnsupportedOp) : (s.setUnsupported u).launch = s.launch := rfl
@[simp] theorem State.setUnsupported_hostRequest (u : Option UnsupportedOp) : (s.setUnsupported u).hostRequest = s.hostRequest := rfl
@[simp] theorem State.setUnsupported_shutdown (u : Option UnsupportedOp) : (s.setUnsupported u).shutdown = s.shutdown := rfl
@[simp] theorem State.setUnsupported_faults (u : Option UnsupportedOp) : (s.setUnsupported u).faults = s.faults := rfl
@[simp] theorem State.setUnsupported_stopped (u : Option UnsupportedOp) : (s.setUnsupported u).stopped = s.stopped := rfl
@[simp] theorem State.setUnsupported_mem (u : Option UnsupportedOp) (r : Region) : (s.setUnsupported u).mem r = s.mem r := by cases r <;> rfl
@[simp] theorem State.setUnsupported_cell (u : Option UnsupportedOp) (r : Region) (i : Nat) : (s.setUnsupported u).cell r i = s.cell r i := by
  simp only [State.cell, State.setUnsupported_mem]

@[simp] theorem State.setTrace_cpu (t : Option Trace) : (s.setTrace t).cpu = { s.cpu with trace := t } := rfl
@[simp] theorem State.setTrace_ram (t : Option Trace) : (s.setTrace t).ram = s.ram := rfl
@[simp] theorem State.setTrace_busLatch (t : Option Trace) : (s.setTrace t).busLatch = s.busLatch := rfl
@[simp] theorem State.setTrace_ppu (t : Option Trace) : (s.setTrace t).ppu = s.ppu := rfl
@[simp] theorem State.setTrace_mapper (t : Option Trace) : (s.setTrace t).mapper = s.mapper := rfl
@[simp] theorem State.setTrace_launch (t : Option Trace) : (s.setTrace t).launch = s.launch := rfl
@[simp] theorem State.setTrace_hostRequest (t : Option Trace) : (s.setTrace t).hostRequest = s.hostRequest := rfl
@[simp] theorem State.setTrace_shutdown (t : Option Trace) : (s.setTrace t).shutdown = s.shutdown := rfl
@[simp] theorem State.setTrace_faults (t : Option Trace) : (s.setTrace t).faults = s.faults := rfl
@[simp] theorem State.setTrace_stopped (t : Option Trace) : (s.setTrace t).stopped = s.stopped := rfl
@[simp] theorem State.setTrace_mem (t : Option Trace) (r : Region) : (s.setTrace t).mem r = s.mem r := by cases r <;> rfl
@[simp] theorem State.setTrace_cell (t : Option Trace) (r : Region) (i : Nat) : (s.setTrace t).cell r i = s.cell r i := by
  simp only [State.cell, State.setTrace_mem]

@[simp] theorem State.loadStatus_cpu (v : Byte) : (s.loadStatus v).cpu = { s.cpu with n := bit v 7, v := bit v 6, d := bit v 3, i := bit v 2, z := bit v 1, c := bit v 0 } := rfl
@[simp] theorem State.loadStatus_ram (v : Byte) : (s.loadStatus v).ram = s.ram := rfl
@[simp] theorem State.loadStatus_busLatch (v : Byte) : (s.loadStatus v).busLatch = s.busLatch := rfl
@[simp] theorem State.loadStatus_ppu (v : Byte) : (s.loadStatus v).ppu = s.ppu := rfl
@[simp] theorem State.loadStatus_mapper (v : Byte) : (s.loadStatus v).mapper = s.mapper := rfl
@[simp] theorem State.loadStatus_launch (v : Byte) : (s.loadStatus v).launch = s.launch := rfl
@[simp] theorem State.loadStatus_hostRequest (v : Byte) : (s.loadStatus v).hostRequest = s.hostRequest := rfl
@[simp] theorem State.loadStatus_shutdown (v : Byte) : (s.loadStatus v).shutdown = s.shutdown := rfl
@[simp] theorem State.loadStatus_faults (v : Byte) : (s.loadStatus v).faults = s.faults := rfl
@[simp] theorem State.loadStatus_stopped (v : Byte) : (s.loadStatus v).stopped = s.stopped := rfl
@[simp] theorem State.loadStatus_mem (v : Byte) (r : Region) : (s.loadStatus v).mem r = s.mem r := by cases r <;> rfl
@[simp] theorem State.loadStatus_cell (v : Byte) (r : Region) (i : Nat) : (s.loadStatus v).cell r i = s.cell r i := by
  simp only [State.cell, State.loadStatus_mem]

@[simp] theorem State.setBusLatch_cpu (v : Byte) : (s.setBusLatch v).cpu = s.cpu := rfl
@[simp] theorem State.setBusLatch_ram (v : Byte) : (s.setBusLatch v).ram = s.ram := rfl
@[simp] theorem State.setBusLatch_busLatch (v : Byte) : (s.setBusLatch v).busLatch = v := rfl
@[simp] theorem State.setBusLatch_ppu (v : Byte) : (s.setBusLatch v).ppu = s.ppu := rfl
@[simp] theorem State.setBusLatch_mapper (v : Byte) : (s.setBusLatch v).mapper = s.mapper := rfl
@[simp] theorem State.setBusLatch_launch (v : Byte) : (s.setBusLatch v).launch = s.launch := rfl
@[simp] theorem State.setBusLatch_hostRequest (v : Byte) : (s.setBusLatch v).hostRequest = s.hostRequest := rfl
@[simp] theorem State.setBusLatch_shutdown (v : Byte) : (s.setBusLatch v).shutdown = s.shutdown := rfl
@[simp] theorem State.setBusLatch_faults (v : Byte) : (s.setBusLatch v).faults = s.faults := rfl
@[simp] theorem State.setBusLatch_stopped (v : Byte) : (s.setBusLatch v).stopped = s.stopped := rfl
@[simp] theorem State.setBusLatch_mem (v : Byte) (r : Region) : (s.setBusLatch v).mem r = s.mem r := by cases r <;> rfl
@[simp] theorem State.setBusLatch_cell (v : Byte) (r : Region) (i : Nat) : (s.setBusLatch v).cell r i = s.cell r i := by
  simp only [State.cell, State.setBusLatch_mem]

@[simp] theorem State.setPpu_cpu (p : Ppu) : (s.setPpu p).cpu = s.cpu := rfl
@[simp] theorem State.setPpu_ram (p : Ppu) : (s.setPpu p).ram = s.ram := rfl
@[simp] theorem State.setPpu_busLatch (p : Ppu) : (s.setPpu p).busLatch = s.busLatch := rfl
@[simp] theorem State.setPpu_ppu (p : Ppu) : (s.setPpu p).ppu = p := rfl
@[simp] theorem State.setPpu_mapper (p : Ppu) : (s.setPpu p).mapper = s.mapper := rfl
@[simp] theorem State.setPpu_launch (p : Ppu) : (s.setPpu p).launch = s.launch := rfl
@[simp] theorem State.setPpu_hostRequest (p : Ppu) : (s.setPpu p).hostRequest = s.hostRequest := rfl
@[simp] theorem State.setPpu_shutdown (p : Ppu) : (s.setPpu p).shutdown = s.shutdown := rfl
@[simp] theorem State.setPpu_faults (p : Ppu) : (s.setPpu p).faults = s.faults := rfl
@[simp] theorem State.setPpu_stopped (p : Ppu) : (s.setPpu p).stopped = s.stopped := rfl
@[simp] theorem State.noteFault_cpu (c : FaultCause) : (s.noteFault c).cpu = s.cpu := rfl
@[simp] theorem State.noteFault_ram (c : FaultCause) : (s.noteFault c).ram = s.ram := rfl
@[simp] theorem State.noteFault_busLatch (c : FaultCause) : (s.noteFault c).busLatch = s.busLatch := rfl
@[simp] theorem State.noteFault_ppu (c : FaultCause) : (s.noteFault c).ppu = s.ppu := rfl
@[simp] theorem State.noteFault_mapper (c : FaultCause) : (s.noteFault c).mapper = s.mapper := rfl
@[simp] theorem State.noteFault_launch (c : FaultCause) : (s.noteFault c).launch = s.launch := rfl
@[simp] theorem State.noteFault_hostRequest (c : FaultCause) : (s.noteFault c).hostRequest = s.hostRequest := rfl
@[simp] theorem State.noteFault_shutdown (c : FaultCause) : (s.noteFault c).shutdown = s.shutdown := rfl
@[simp] theorem State.noteFault_faults (c : FaultCause) : (s.noteFault c).faults = c :: s.faults := rfl
@[simp] theorem State.noteFault_stopped (c : FaultCause) : (s.noteFault c).stopped = (s.stopped || c.fatal) := rfl
@[simp] theorem State.noteFault_mem (c : FaultCause) (r : Region) : (s.noteFault c).mem r = s.mem r := by cases r <;> rfl
@[simp] theorem State.noteFault_cell (c : FaultCause) (r : Region) (i : Nat) : (s.noteFault c).cell r i = s.cell r i := by
  simp only [State.cell, State.noteFault_mem]

/-- Replacing the PPU by one with the same memories changes no byte of memory. -/
theorem State.setPpu_cell (p : Ppu) (r : Region) (i : Nat) (hv : p.vram = s.ppu.vram) (hp : p.palette = s.ppu.palette)
    (ho : p.oam = s.ppu.oam) : (s.setPpu p).cell r i = s.cell r i := by
  cases r <;> simp [State.cell, State.mem, hv, hp, ho]

/-- Two states with the same memories read the same bytes. -/
theorem State.cell_congr (s t : State) (hram : t.ram = s.ram) (hm : t.mapper.prgRam = s.mapper.prgRam)
    (hc : t.mapper.chrRam = s.mapper.chrRam) (hv : t.ppu.vram = s.ppu.vram) (hp : t.ppu.palette = s.ppu.palette)
    (ho : t.ppu.oam = s.ppu.oam) (hl : t.launch = s.launch) (r : Region) (i : Nat) : t.cell r i = s.cell r i := by
  cases r <;> simp [State.cell, State.mem, *]

@[simp] theorem State.setMem_cpu (r : Region) (m : Mem) : (s.setMem r m).cpu = s.cpu := by cases r <;> rfl
@[simp] theorem State.setCell_cpu (r : Region) (i : Nat) (b : Byte) : (s.setCell r i b).cpu = s.cpu := by
  simp only [State.setCell, State.setMem_cpu]
@[simp] theorem State.setMem_busLatch (r : Region) (m : Mem) : (s.setMem r m).busLatch = s.busLatch := by cases r <;> rfl
@[simp] theorem State.setCell_busLatch (r : Region) (i : Nat) (b : Byte) : (s.setCell r i b).busLatch = s.busLatch := by
  simp only [State.setCell, State.setMem_busLatch]
@[simp] theorem State.setMem_hostRequest (r : Region) (m : Mem) : (s.setMem r m).hostRequest = s.hostRequest := by cases r <;> rfl
@[simp] theorem State.setCell_hostRequest (r : Region) (i : Nat) (b : Byte) : (s.setCell r i b).hostRequest = s.hostRequest := by
  simp only [State.setCell, State.setMem_hostRequest]
@[simp] theorem State.setMem_shutdown (r : Region) (m : Mem) : (s.setMem r m).shutdown = s.shutdown := by cases r <;> rfl
@[simp] theorem State.setCell_shutdown (r : Region) (i : Nat) (b : Byte) : (s.setCell r i b).shutdown = s.shutdown := by
  simp only [State.setCell, State.setMem_shutdown]
@[simp] theorem State.setMem_faults (r : Region) (m : Mem) : (s.setMem r m).faults = s.faults := by cases r <;> rfl
@[simp] theorem State.setCell_faults (r : Region) (i : Nat) (b : Byte) : (s.setCell r i b).faults = s.faults := by
  simp only [State.setCell, State.setMem_faults]
@[simp] theorem State.setMem_stopped (r : Region) (m : Mem) : (s.setMem r m).stopped = s.stopped := by cases r <;> rfl
@[simp] theorem State.setCell_stopped (r : Region) (i : Nat) (b : Byte) : (s.setCell r i b).stopped = s.stopped := by
  simp only [State.setCell, State.setMem_stopped]

@[simp] theorem State.setMem_regs (r : Region) (m : Mem) : (s.setMem r m).mapper.regs = s.mapper.regs := by cases r <;> rfl

@[simp] theorem State.setCell_regs (r : Region) (i : Nat) (b : Byte) : (s.setCell r i b).mapper.regs = s.mapper.regs := by
  simp only [State.setCell, State.setMem_regs]

/-- A write to a RAM leaves the launch parameters; only a ROM's placing changes them. -/
theorem State.setCell_launch (r : Region) (i : Nat) (b : Byte) (hp : r ≠ .prgRom) (hc : r ≠ .chrRom) :
    (s.setCell r i b).launch = s.launch := by
  cases r <;> simp_all [State.setCell, State.setMem]

/-- A write to a memory outside the PPU leaves the PPU. -/
theorem State.setCell_ppu (r : Region) (i : Nat) (b : Byte) (hv : r ≠ .vram) (hp : r ≠ .palette) (ho : r ≠ .oam) :
    (s.setCell r i b).ppu = s.ppu := by
  cases r <;> simp_all [State.setCell, State.setMem]

/-- A write to a PPU memory replaces only the PPU's memories. -/
theorem State.setCell_ppu_eq (r : Region) (i : Nat) (b : Byte) :
    (s.setCell r i b).ppu =
      { s.ppu with
        vram := (s.setCell r i b).ppu.vram
        palette := (s.setCell r i b).ppu.palette
        oam := (s.setCell r i b).ppu.oam } := by
  cases r <;> rfl

theorem State.setMem_mem_same (r : Region) (m : Mem) : (s.setMem r m).mem r = m := by cases r <;> rfl

theorem State.setMem_mem_ne (r q : Region) (m : Mem) (h : q ≠ r) : (s.setMem r m).mem q = s.mem q := by
  cases r <;> cases q <;> first | rfl | exact absurd rfl h

end Sys2Proof.Machine
end

