-- ==== Sys2Proof/Laws/Mem.lean ====
section
/-! SUPPORT. The byte memories: read after write, and the canonical form kept by every memory operation. -/

namespace Sys2Proof.Machine

theorem memFind_memInsert (m : Mem) (i j : Nat) (b : Byte) :
    memFind (memInsert m i b) j = if i = j then some b else memFind m j := by
  induction m with
  | nil => simp [memInsert, memFind]
  | cons c m ih =>
    obtain ⟨k, d⟩ := c
    simp only [memInsert]
    split
    · simp [memFind]
    · split
      · subst_vars; simp only [memFind]; split <;> rfl
      · rename_i hne
        simp only [memFind, ih]
        split
        · subst_vars; rw [if_neg fun e => hne e.symm]
        · rfl

theorem memFind_memErase (m : Mem) (i j : Nat) :
    memFind (memErase m i) j = if i = j then none else memFind m j := by
  induction m with
  | nil => simp [memErase, memFind]
  | cons c m ih =>
    obtain ⟨k, d⟩ := c
    simp only [memErase]
    split
    · subst_vars; simp only [ih, memFind]; split <;> rfl
    · rename_i hne
      simp only [memFind, ih]
      split
      · subst_vars; rw [if_neg fun e => hne e.symm]
      · rfl

/-- Read after write: the byte written at its place, every other place as before. -/
theorem memRead_memWrite (r : Region) (m : Mem) (i j : Nat) (b : Byte) :
    memRead r (memWrite r m i b) j = if i = j then b else memRead r m j := by
  unfold memRead memWrite
  split
  · rename_i h
    rw [memFind_memErase]
    split
    · simp [unlistedRead, h]
    · rfl
  · rw [memFind_memInsert]
    split <;> rfl

/-- A byte of memory after a write to one cell. -/
theorem State.cell_setCell (s : State) (r q : Region) (i j : Nat) (b : Byte) :
    (s.setCell r i b).cell q j = if r = q ∧ i = j then b else s.cell q j := by
  unfold State.cell State.setCell
  by_cases h : q = r
  · subst h
    rw [State.setMem_mem_same, memRead_memWrite]
    simp
  · rw [State.setMem_mem_ne _ _ _ _ h]
    have : ¬ r = q := fun e => h e.symm
    simp [this]

theorem State.cell_setCell_same (s : State) (r : Region) (i : Nat) (b : Byte) : (s.setCell r i b).cell r i = b := by
  simp [State.cell_setCell]

theorem State.cell_setCell_ne (s : State) (r q : Region) (i j : Nat) (b : Byte) (h : (q, j) ≠ (r, i)) :
    (s.setCell r i b).cell q j = s.cell q j := by
  rw [State.cell_setCell, if_neg]
  rintro ⟨rfl, rfl⟩
  exact h rfl

theorem risingFrom_mono (m : Mem) (a b : Nat) (h : a ≤ b) (hm : risingFrom b m = true) : risingFrom a m = true := by
  cases m with
  | nil => rfl
  | cons c m =>
    simp only [risingFrom, Bool.and_eq_true, decide_eq_true_eq] at hm ⊢
    exact ⟨le_trans h hm.1, hm.2⟩

theorem risingFrom_memInsert (m : Mem) (lo i : Nat) (b : Byte) (hi : lo ≤ i) (hm : risingFrom lo m = true) :
    risingFrom lo (memInsert m i b) = true := by
  induction m generalizing lo with
  | nil => simp [memInsert, risingFrom, hi]
  | cons c m ih =>
    obtain ⟨k, d⟩ := c
    simp only [risingFrom, Bool.and_eq_true, decide_eq_true_eq] at hm
    simp only [memInsert]
    split
    · simp only [risingFrom, Bool.and_eq_true, decide_eq_true_eq]
      exact ⟨hi, by omega, hm.2⟩
    · split
      · subst_vars; simp only [risingFrom, Bool.and_eq_true, decide_eq_true_eq]; exact hm
      · simp only [risingFrom, Bool.and_eq_true, decide_eq_true_eq]
        exact ⟨hm.1, ih (k + 1) (by omega) hm.2⟩

theorem risingFrom_memErase (m : Mem) (lo i : Nat) (hm : risingFrom lo m = true) : risingFrom lo (memErase m i) = true := by
  induction m generalizing lo with
  | nil => rfl
  | cons c m ih =>
    obtain ⟨k, d⟩ := c
    simp only [risingFrom, Bool.and_eq_true, decide_eq_true_eq] at hm
    simp only [memErase]
    split
    · exact ih lo (risingFrom_mono _ _ _ (by omega) hm.2)
    · simp only [risingFrom, Bool.and_eq_true, decide_eq_true_eq]
      exact ⟨hm.1, ih _ hm.2⟩

/-- A property of every listed cell is kept by listing one more that has it. -/
theorem all_memInsert (p : Host.Cell → Bool) (m : Mem) (i : Nat) (b : Byte) (hm : m.all p = true) (hb : p (i, b) = true) :
    (memInsert m i b).all p = true := by
  induction m with
  | nil => simp [memInsert, hb]
  | cons c m ih =>
    obtain ⟨k, d⟩ := c
    simp only [List.all_cons, Bool.and_eq_true] at hm
    simp only [memInsert]
    split
    · simp [List.all_cons, hb, hm.1, hm.2]
    · split
      · simp [List.all_cons, hb, hm.2]
      · simp [List.all_cons, hm.1, ih hm.2]

theorem all_memErase (p : Host.Cell → Bool) (m : Mem) (i : Nat) (hm : m.all p = true) : (memErase m i).all p = true := by
  induction m with
  | nil => rfl
  | cons c m ih =>
    obtain ⟨k, d⟩ := c
    simp only [List.all_cons, Bool.and_eq_true] at hm
    simp only [memErase]
    split
    · exact ih hm.2
    · simp [List.all_cons, hm.1, ih hm.2]

/-- The one memory write keeps the canonical form. -/
theorem wf_memWrite (r : Region) (m : Mem) (i : Nat) (b : Byte) (h : Memory.wf r m = true) :
    Memory.wf r (memWrite r m i b) = true := by
  simp only [Memory.wf, Bool.and_eq_true] at h ⊢
  unfold memWrite
  split
  · exact ⟨risingFrom_memErase _ _ _ h.1, all_memErase _ _ _ h.2⟩
  · rename_i hb
    exact ⟨risingFrom_memInsert _ _ _ _ (Nat.zero_le _) h.1, all_memInsert _ _ _ _ h.2 (by simpa using hb)⟩

/-- A list of bytes as cells is in the canonical form. -/
theorem wf_cellsFrom (r : Region) (k : Nat) (bs : List Byte) :
    risingFrom k (cellsFrom r k bs) = true ∧ (cellsFrom r k bs).all (fun c => unlisted r != some c.2) = true := by
  induction bs generalizing k with
  | nil => exact ⟨rfl, rfl⟩
  | cons b bs ih =>
    simp only [cellsFrom]
    split
    · exact ⟨risingFrom_mono _ _ _ (Nat.le_succ k) (ih (k + 1)).1, (ih (k + 1)).2⟩
    · rename_i hb
      refine ⟨?_, ?_⟩
      · simp [risingFrom, (ih (k + 1)).1]
      · rw [List.all_cons, Bool.and_eq_true]
        exact ⟨by simpa using hb, (ih (k + 1)).2⟩

/-- Writing one cell of one memory keeps every memory's canonical form. -/
theorem memWf_setCell (s : State) (r : Region) (i : Nat) (b : Byte) (h : s.memWf = true) : (s.setCell r i b).memWf = true := by
  simp only [State.memWf, Bool.and_eq_true] at h ⊢
  obtain ⟨⟨⟨⟨⟨⟨⟨h1, h2⟩, h3⟩, h4⟩, h5⟩, h6⟩, h7⟩, h8⟩ := h
  cases r <;> simp [State.setCell, State.setMem, State.mem, wf_memWrite, *]

end Sys2Proof.Machine
end

