-- ==== Sys2Proof/Laws/Bus.lean ====
section
/-! SUPPORT. What the shared operations can do: port and bus accesses, the mapper's writes, the stack, the addressing modes.
A proof about an instruction cites these and does not unfold the bus. -/

namespace Sys2Proof.Machine

variable (s : State)

/-- A port read changes only vblank, the write toggle, the read buffer, `v` and the I/O latch of the PPU (20_memory.md R98). -/
theorem portRead_cases (p : Nat) : ∃ vb w rb v io, (portRead p s).2 =
    s.setPpu { s.ppu with vblank := vb, w := w, readBuffer := rb, v := v, ioLatch := io } := by
  unfold portRead
  split
  · exact ⟨false, false, s.ppu.readBuffer, s.ppu.v, _, rfl⟩
  · exact ⟨s.ppu.vblank, s.ppu.w, s.ppu.readBuffer, s.ppu.v, _, rfl⟩
  · exact ⟨s.ppu.vblank, s.ppu.w, _, _, _, rfl⟩
  · exact ⟨s.ppu.vblank, s.ppu.w, s.ppu.readBuffer, s.ppu.v, s.ppu.ioLatch, rfl⟩

/-- Everything a bus read can do: the latch, and the port registers of `portRead_cases`. -/
theorem busRead_cases (a : Word) : ∃ vb w rb v io bl, (busRead a s).2 =
    (s.setPpu { s.ppu with vblank := vb, w := w, readBuffer := rb, v := v, ioLatch := io }).setBusLatch bl := by
  unfold busRead
  split
  · exact ⟨s.ppu.vblank, s.ppu.w, s.ppu.readBuffer, s.ppu.v, s.ppu.ioLatch, _, rfl⟩
  · rename_i p _
    obtain ⟨vb, w, rb, v, io, h⟩ := portRead_cases s p
    exact ⟨vb, w, rb, v, io, (portRead p s).1, by simp only [h]⟩
  · exact ⟨s.ppu.vblank, s.ppu.w, s.ppu.readBuffer, s.ppu.v, s.ppu.ioLatch, s.busLatch, rfl⟩

@[simp] theorem busRead_cpu (a : Word) : (busRead a s).2.cpu = s.cpu := by
  obtain ⟨_, _, _, _, _, _, h⟩ := busRead_cases s a
  simp [h]

@[simp] theorem busRead_ram (a : Word) : (busRead a s).2.ram = s.ram := by
  obtain ⟨_, _, _, _, _, _, h⟩ := busRead_cases s a
  simp [h]

@[simp] theorem busRead_mapper (a : Word) : (busRead a s).2.mapper = s.mapper := by
  obtain ⟨_, _, _, _, _, _, h⟩ := busRead_cases s a
  simp [h]

@[simp] theorem busRead_launch (a : Word) : (busRead a s).2.launch = s.launch := by
  obtain ⟨_, _, _, _, _, _, h⟩ := busRead_cases s a
  simp [h]

@[simp] theorem busRead_hostRequest (a : Word) : (busRead a s).2.hostRequest = s.hostRequest := by
  obtain ⟨_, _, _, _, _, _, h⟩ := busRead_cases s a
  simp [h]

@[simp] theorem busRead_shutdown (a : Word) : (busRead a s).2.shutdown = s.shutdown := by
  obtain ⟨_, _, _, _, _, _, h⟩ := busRead_cases s a
  simp [h]

@[simp] theorem busRead_faults (a : Word) : (busRead a s).2.faults = s.faults := by
  obtain ⟨_, _, _, _, _, _, h⟩ := busRead_cases s a
  simp [h]

@[simp] theorem busRead_stopped (a : Word) : (busRead a s).2.stopped = s.stopped := by
  obtain ⟨_, _, _, _, _, _, h⟩ := busRead_cases s a
  simp [h]

@[simp] theorem busRead_ppu_oam (a : Word) : (busRead a s).2.ppu.oam = s.ppu.oam := by
  obtain ⟨_, _, _, _, _, _, h⟩ := busRead_cases s a
  simp [h]

@[simp] theorem busRead_ppu_vram (a : Word) : (busRead a s).2.ppu.vram = s.ppu.vram := by
  obtain ⟨_, _, _, _, _, _, h⟩ := busRead_cases s a
  simp [h]

@[simp] theorem busRead_ppu_palette (a : Word) : (busRead a s).2.ppu.palette = s.ppu.palette := by
  obtain ⟨_, _, _, _, _, _, h⟩ := busRead_cases s a
  simp [h]

@[simp] theorem busRead_ppu_secondary (a : Word) : (busRead a s).2.ppu.secondary = s.ppu.secondary := by
  obtain ⟨_, _, _, _, _, _, h⟩ := busRead_cases s a
  simp [h]

@[simp] theorem busRead_ppu_sprites (a : Word) : (busRead a s).2.ppu.sprites = s.ppu.sprites := by
  obtain ⟨_, _, _, _, _, _, h⟩ := busRead_cases s a
  simp [h]

@[simp] theorem busRead_ppu_scanline (a : Word) : (busRead a s).2.ppu.scanline = s.ppu.scanline := by
  obtain ⟨_, _, _, _, _, _, h⟩ := busRead_cases s a
  simp [h]

@[simp] theorem busRead_ppu_dot (a : Word) : (busRead a s).2.ppu.dot = s.ppu.dot := by
  obtain ⟨_, _, _, _, _, _, h⟩ := busRead_cases s a
  simp [h]

@[simp] theorem busRead_ppu_backFrame (a : Word) : (busRead a s).2.ppu.backFrame = s.ppu.backFrame := by
  obtain ⟨_, _, _, _, _, _, h⟩ := busRead_cases s a
  simp [h]

@[simp] theorem busRead_ppu_publishedFrame (a : Word) : (busRead a s).2.ppu.publishedFrame = s.ppu.publishedFrame := by
  obtain ⟨_, _, _, _, _, _, h⟩ := busRead_cases s a
  simp [h]

@[simp] theorem busRead_cell (a : Word) (r : Region) (i : Nat) : (busRead a s).2.cell r i = s.cell r i := by
  obtain ⟨_, _, _, _, _, _, h⟩ := busRead_cases s a
  rw [h, State.setBusLatch_cell, State.setPpu_cell] <;> rfl

/-- A read of anything but the ports changes the latch alone (20_memory.md R80, R98). -/
theorem busRead_not_port (a : Word) (h : isPort a = false) :
    (busRead a s).2 = s.setBusLatch (busRead a s).1 := by
  unfold busRead
  split
  · rfl
  · rename_i p hp
    unfold busSelect at hp
    simp only [isPort, Bool.and_eq_false_iff, decide_eq_false_iff_not] at h
    split at hp
    · cases hp
    · split at hp
      · split at hp <;> cases hp
      · split at hp
        · cases hp
        · split at hp
          · omega
          · cases hp
  · rfl

/-- After any read but open bus's the latch holds the byte read; open bus leaves it (20 R80, R83). -/
theorem busRead_latch (a : Word) : (busRead a s).2.busLatch = (busRead a s).1 := by
  unfold busRead
  split <;> rfl

theorem mapperWrite_cases (a : Word) (d : Byte) : ∃ regs q, mapperWrite a d s =
    { s with mapper := { s.mapper with regs := regs }, cpu := { s.cpu with irqPending := q } } := by
  unfold mapperWrite
  split
  · exact ⟨s.mapper.regs, s.cpu.irqPending, rfl⟩
  · exact ⟨_, s.cpu.irqPending, rfl⟩
  · exact ⟨_, _, rfl⟩

/-- The PPU decoder selects a pattern memory, the nametables or the palette (61_ppu.md R540). -/
theorem ppuSelect_region (a : PpuAddr) :
    (ppuSelect s a).1 = .chrRom ∨ (ppuSelect s a).1 = .chrRam ∨ (ppuSelect s a).1 = .vram ∨ (ppuSelect s a).1 = .palette := by
  unfold ppuSelect chrRegion
  dsimp only
  split
  · split <;> simp
  · split <;> simp

/-- The PPU bus reads the same in states with the same cartridge, mapper and PPU memories. -/
theorem ppuRead_congr {t : State} (a : PpuAddr) (hl : t.launch = s.launch) (hm : t.mapper = s.mapper)
    (hv : t.ppu.vram = s.ppu.vram) (hp : t.ppu.palette = s.ppu.palette) : ppuRead t a = ppuRead s a := by
  have hs : ppuSelect t a = ppuSelect s a := by unfold ppuSelect; rw [hl, hm]
  unfold ppuRead
  rw [hs]
  rcases ppuSelect_region s a with h | h | h | h <;>
    rw [show ppuSelect s a = (_, (ppuSelect s a).2) from Prod.ext h rfl] <;> simp only [State.cell, State.mem, hl, hm, hv, hp]

/-- A PPU bus write stores one byte of CHR-RAM, VRAM or palette, or nothing. -/
theorem ppuWrite_cases (a : PpuAddr) (d : Byte) : ppuWrite s a d = s ∨
    ∃ r i b, ppuSelect s a = (r, i) ∧ (r = .chrRam ∨ r = .vram ∨ (r = .palette ∧ b = d &&& 0x3F)) ∧
      ppuWrite s a d = s.setCell r i b := by
  have h := ppuSelect_region s a
  unfold ppuWrite
  split
  · exact .inl rfl
  · rename_i i hi
    exact .inr ⟨_, _, _, hi, .inr (.inr ⟨rfl, rfl⟩), rfl⟩
  · rename_i r i hc hp hi
    rw [hi] at h
    rcases h with h | h | h | h
    · exact absurd h hc
    · exact .inr ⟨_, _, _, hi, .inl h, rfl⟩
    · exact .inr ⟨_, _, _, hi, .inr (.inl h), rfl⟩
    · exact absurd h hp

/-- The registers a port write can change, gathered (61_ppu.md R521 to R531). -/
def Ppu.withPorts (p : Ppu) (ctrl mask : Byte) (v t : VramAddr) (x : BitVec 3) (w : Bool) (oamAddr io : Byte) : Ppu :=
  { p with ctrl := ctrl, mask := mask, v := v, t := t, x := x, w := w, oamAddr := oamAddr, ioLatch := io }

/-- The cell a port write stores to (R526, R531; Machine/Ops.lean, `storedCell`). -/
def portCell (p : Nat) : Option (Region × Nat) :=
  match p with
  | 4 => some (.oam, s.ppu.oamAddr.toNat)
  | 7 =>
    match ppuSelect s s.ppu.busAddr with
    | (.chrRom, _) => none
    | (r, i) => some (r, i)
  | _ => none

/-- `base` with the port registers and the NMI latch of `r`. -/
def State.withPortsOf (base r : State) : State :=
  (base.setPpu (base.ppu.withPorts r.ppu.ctrl r.ppu.mask r.ppu.v r.ppu.t r.ppu.x r.ppu.w r.ppu.oamAddr r.ppu.ioLatch)).setNmi
    r.cpu.nmiPending

/-- Everything a port write can do: at most the one byte that `portCell` names, in OAM, CHR-RAM, VRAM or the palette
(there of 6 bits), the port registers, and by port 0 alone the NMI latch. -/
theorem portWrite_cases (p : Nat) (d : Byte) : ∃ base,
    (base = s ∨ ∃ r i b, portCell s p = some (r, i) ∧
      (r = .oam ∨ r = .chrRam ∨ r = .vram ∨ (r = .palette ∧ b = d &&& 0x3F)) ∧ base = s.setCell r i b) ∧
    (p ≠ 0 → (portWrite p d s).cpu.nmiPending = s.cpu.nmiPending) ∧
    portWrite p d s = base.withPortsOf (portWrite p d s) := by
  unfold portWrite
  dsimp only
  split
  · exact ⟨s, .inl rfl, fun h => absurd rfl h, rfl⟩
  · exact ⟨s, .inl rfl, fun _ => rfl, rfl⟩
  · exact ⟨s, .inl rfl, fun _ => rfl, rfl⟩
  · exact ⟨s.setCell .oam s.ppu.oamAddr.toNat d, .inr ⟨_, _, _, rfl, .inl rfl, rfl⟩, fun _ => rfl, rfl⟩
  · refine ⟨s, .inl rfl, fun _ => ?_, ?_⟩ <;> (unfold writeScrollPort; split <;> rfl)
  · refine ⟨s, .inl rfl, fun _ => ?_, ?_⟩ <;> (unfold writeAddrPort; split <;> rfl)
  · unfold writeDataPort
    dsimp only
    rcases ppuWrite_cases (s.setPpu { s.ppu with ioLatch := d }) s.ppu.busAddr d with h | ⟨r, i, b, hs, hr, h⟩
    · refine ⟨s, .inl rfl, fun _ => ?_, ?_⟩ <;>
        (show _ = _; rw [show (s.setPpu { s.ppu with ioLatch := d }).ppu.busAddr = s.ppu.busAddr from rfl, h]; rfl)
    · refine ⟨s.setCell r i b, .inr ⟨r, i, b, ?_, .inr hr, rfl⟩, fun _ => ?_, ?_⟩
      · have hs' : ppuSelect s s.ppu.busAddr = (r, i) := hs
        simp only [portCell, hs']
        split
        · rename_i heq
          simp only [Prod.mk.injEq] at heq
          rcases hr with hr | hr | hr <;> simp [hr] at heq
        · rename_i heq
          rw [← heq]
      all_goals
        rw [show (s.setPpu { s.ppu with ioLatch := d }).ppu.busAddr = s.ppu.busAddr from rfl, h]
        rcases hr with hr | hr | ⟨hr, _⟩ <;> subst hr <;> rfl
  · exact ⟨s, .inl rfl, fun _ => rfl, rfl⟩

/-- Everything a bus write can do: one byte of a memory that is not a ROM, the port registers, the mapper's registers, the
open-bus latch and the two interrupt latches. -/
theorem busWrite_cases (a : Word) (v : Byte) : ∃ base ctrl mask pv t x w oa io n q regs,
    (base = s ∨ ∃ r i b, storedCell s a = some (r, i) ∧ r ≠ .prgRom ∧ r ≠ .chrRom ∧
      (r = .palette → b = v &&& 0x3F) ∧ base = s.setCell r i b) ∧
    (isPort a = false → n = s.cpu.nmiPending) ∧
    (a.toNat < 0x8000 → q = s.cpu.irqPending ∧ regs = s.mapper.regs) ∧
    busWrite a v s =
      { base with
        ppu := base.ppu.withPorts ctrl mask pv t x w oa io
        busLatch := v
        mapper := { base.mapper with regs := regs }
        cpu := { base.cpu with nmiPending := n, irqPending := q } } := by
  suffices key : ∃ base, (base = s ∨ ∃ r i b, storedCell s a = some (r, i) ∧ r ≠ .prgRom ∧ r ≠ .chrRom ∧
      (r = .palette → b = v &&& 0x3F) ∧ base = s.setCell r i b) ∧
      (isPort a = false → (busWrite a v s).cpu.nmiPending = s.cpu.nmiPending) ∧
      (a.toNat < 0x8000 → (busWrite a v s).cpu.irqPending = s.cpu.irqPending ∧
        (busWrite a v s).mapper.regs = s.mapper.regs) ∧
      busWrite a v s =
        { base.withPortsOf (busWrite a v s) with
          busLatch := v
          mapper := { base.mapper with regs := (busWrite a v s).mapper.regs }
          cpu := { base.cpu with
            nmiPending := (busWrite a v s).cpu.nmiPending
            irqPending := (busWrite a v s).cpu.irqPending } } by
    obtain ⟨base, h1, h2, h3, h4⟩ := key
    exact ⟨base, _, _, _, _, _, _, _, _, _, _, _, h1, h2, h3, h4⟩
  by_cases hlt : 0x8000 ≤ a.toNat
  · have hw : busWrite a v s = mapperWrite a v (s.setBusLatch v) := if_pos hlt
    rw [hw]
    obtain ⟨regs, q, h⟩ := mapperWrite_cases (s.setBusLatch v) a v
    rw [h]
    exact ⟨s, .inl rfl, fun _ => rfl, fun h' => by omega, rfl⟩
  have hw : busWrite a v s = (match busSelect (s.setBusLatch v) a with
    | .window w => if w.writable then (s.setBusLatch v).setCell w.region (w.cellIndex a.toNat) v else s.setBusLatch v
    | .port p => portWrite p v (s.setBusLatch v)
    | .openBus => s.setBusLatch v) := if_neg hlt
  have hsel : busSelect (s.setBusLatch v) a = busSelect s a := rfl
  rw [hsel] at hw
  cases hs : busSelect s a with
  | window w =>
    simp only [hs] at hw
    by_cases hwr : w.writable = true
    · have hreg : w.region = .ram ∨ w.region = .prgRam := by
        have hsw := hs
        unfold busSelect at hsw
        rw [if_neg hlt] at hsw
        split at hsw
        · split at hsw
          · rename_i w' hw'
            cases hsw
            unfold prgRamWindow at hw'
            right
            split at hw' <;> split at hw' <;> first | (cases hw'; rfl) | cases hw'
          · cases hsw
        · split at hsw
          · cases hsw; exact .inl rfl
          · split at hsw <;> cases hsw
      rw [if_pos hwr] at hw
      rw [hw]
      refine ⟨s.setCell w.region (w.cellIndex a.toNat) v, .inr ⟨w.region, w.cellIndex a.toNat, v, ?_, ?_, ?_, ?_, rfl⟩,
        ?_, ?_, ?_⟩
      · simp only [storedCell, hs, hwr]
        rw [if_neg hlt]
        rfl
      all_goals rcases hreg with h | h <;> simp only [h] <;> first | rfl | (intro hx; cases hx) | (intros; simp)
    · rw [if_neg hwr] at hw
      rw [hw]
      exact ⟨s, .inl rfl, fun _ => rfl, fun _ => ⟨rfl, rfl⟩, rfl⟩
  | port p =>
    simp only [hs] at hw
    have hport : isPort a = true := by
      have hp := hs
      unfold busSelect at hp
      rw [if_neg hlt] at hp
      simp only [isPort, Bool.and_eq_true, decide_eq_true_eq]
      split at hp
      · split at hp <;> cases hp
      · split at hp
        · cases hp
        · split at hp
          · omega
          · cases hp
    obtain ⟨base, hb, hn, h⟩ := portWrite_cases (s.setBusLatch v) p v
    have hcell : ∀ r i, portCell (s.setBusLatch v) p = some (r, i) → storedCell s a = some (r, i) := by
      intro r i hc
      simp only [storedCell, hs]
      rw [if_neg hlt]
      unfold portCell at hc
      split at hc
      · exact hc
      · exact hc
      · cases hc
    rw [hw]
    rw [h]
    rcases hb with hb | ⟨r, i, b, hc, hr, hb⟩
    · subst hb
      exact ⟨s, .inl rfl, fun h' => absurd (h'.symm.trans hport) (by decide), fun _ => ⟨rfl, rfl⟩, rfl⟩
    · subst hb
      refine ⟨s.setCell r i b, .inr ⟨r, i, b, hcell r i hc, ?_, ?_, ?_, rfl⟩,
        fun h' => absurd (h'.symm.trans hport) (by decide), ?_, ?_⟩
      all_goals rcases hr with h | h | h | ⟨h, hb'⟩ <;> subst h <;>
        first | rfl | (intro _; exact ⟨rfl, rfl⟩) | (intro _; exact hb') | simp
  | openBus =>
    simp only [hs] at hw
    rw [hw]
    exact ⟨s, .inl rfl, fun _ => rfl, fun _ => ⟨rfl, rfl⟩, rfl⟩

@[simp] theorem busWrite_cpu_a (a : Word) (v : Byte) : (busWrite a v s).cpu.a = s.cpu.a := by
  obtain ⟨base, _, _, _, _, _, _, _, _, _, _, _, hb, _, _, h⟩ := busWrite_cases s a v
  rcases hb with rfl | ⟨_, _, _, _, _, _, _, rfl⟩ <;> simp [h]

@[simp] theorem busWrite_cpu_x (a : Word) (v : Byte) : (busWrite a v s).cpu.x = s.cpu.x := by
  obtain ⟨base, _, _, _, _, _, _, _, _, _, _, _, hb, _, _, h⟩ := busWrite_cases s a v
  rcases hb with rfl | ⟨_, _, _, _, _, _, _, rfl⟩ <;> simp [h]

@[simp] theorem busWrite_cpu_y (a : Word) (v : Byte) : (busWrite a v s).cpu.y = s.cpu.y := by
  obtain ⟨base, _, _, _, _, _, _, _, _, _, _, _, hb, _, _, h⟩ := busWrite_cases s a v
  rcases hb with rfl | ⟨_, _, _, _, _, _, _, rfl⟩ <;> simp [h]

@[simp] theorem busWrite_cpu_s (a : Word) (v : Byte) : (busWrite a v s).cpu.s = s.cpu.s := by
  obtain ⟨base, _, _, _, _, _, _, _, _, _, _, _, hb, _, _, h⟩ := busWrite_cases s a v
  rcases hb with rfl | ⟨_, _, _, _, _, _, _, rfl⟩ <;> simp [h]

@[simp] theorem busWrite_cpu_pc (a : Word) (v : Byte) : (busWrite a v s).cpu.pc = s.cpu.pc := by
  obtain ⟨base, _, _, _, _, _, _, _, _, _, _, _, hb, _, _, h⟩ := busWrite_cases s a v
  rcases hb with rfl | ⟨_, _, _, _, _, _, _, rfl⟩ <;> simp [h]

@[simp] theorem busWrite_cpu_c (a : Word) (v : Byte) : (busWrite a v s).cpu.c = s.cpu.c := by
  obtain ⟨base, _, _, _, _, _, _, _, _, _, _, _, hb, _, _, h⟩ := busWrite_cases s a v
  rcases hb with rfl | ⟨_, _, _, _, _, _, _, rfl⟩ <;> simp [h]

@[simp] theorem busWrite_cpu_z (a : Word) (v : Byte) : (busWrite a v s).cpu.z = s.cpu.z := by
  obtain ⟨base, _, _, _, _, _, _, _, _, _, _, _, hb, _, _, h⟩ := busWrite_cases s a v
  rcases hb with rfl | ⟨_, _, _, _, _, _, _, rfl⟩ <;> simp [h]

@[simp] theorem busWrite_cpu_i (a : Word) (v : Byte) : (busWrite a v s).cpu.i = s.cpu.i := by
  obtain ⟨base, _, _, _, _, _, _, _, _, _, _, _, hb, _, _, h⟩ := busWrite_cases s a v
  rcases hb with rfl | ⟨_, _, _, _, _, _, _, rfl⟩ <;> simp [h]

@[simp] theorem busWrite_cpu_d (a : Word) (v : Byte) : (busWrite a v s).cpu.d = s.cpu.d := by
  obtain ⟨base, _, _, _, _, _, _, _, _, _, _, _, hb, _, _, h⟩ := busWrite_cases s a v
  rcases hb with rfl | ⟨_, _, _, _, _, _, _, rfl⟩ <;> simp [h]

@[simp] theorem busWrite_cpu_v (a : Word) (v : Byte) : (busWrite a v s).cpu.v = s.cpu.v := by
  obtain ⟨base, _, _, _, _, _, _, _, _, _, _, _, hb, _, _, h⟩ := busWrite_cases s a v
  rcases hb with rfl | ⟨_, _, _, _, _, _, _, rfl⟩ <;> simp [h]

@[simp] theorem busWrite_cpu_n (a : Word) (v : Byte) : (busWrite a v s).cpu.n = s.cpu.n := by
  obtain ⟨base, _, _, _, _, _, _, _, _, _, _, _, hb, _, _, h⟩ := busWrite_cases s a v
  rcases hb with rfl | ⟨_, _, _, _, _, _, _, rfl⟩ <;> simp [h]

@[simp] theorem busWrite_cpu_sleep (a : Word) (v : Byte) : (busWrite a v s).cpu.sleep = s.cpu.sleep := by
  obtain ⟨base, _, _, _, _, _, _, _, _, _, _, _, hb, _, _, h⟩ := busWrite_cases s a v
  rcases hb with rfl | ⟨_, _, _, _, _, _, _, rfl⟩ <;> simp [h]

@[simp] theorem busWrite_cpu_unsupportedSeen (a : Word) (v : Byte) : (busWrite a v s).cpu.unsupportedSeen = s.cpu.unsupportedSeen := by
  obtain ⟨base, _, _, _, _, _, _, _, _, _, _, _, hb, _, _, h⟩ := busWrite_cases s a v
  rcases hb with rfl | ⟨_, _, _, _, _, _, _, rfl⟩ <;> simp [h]

@[simp] theorem busWrite_cpu_trace (a : Word) (v : Byte) : (busWrite a v s).cpu.trace = s.cpu.trace := by
  obtain ⟨base, _, _, _, _, _, _, _, _, _, _, _, hb, _, _, h⟩ := busWrite_cases s a v
  rcases hb with rfl | ⟨_, _, _, _, _, _, _, rfl⟩ <;> simp [h]

@[simp] theorem busWrite_hostRequest (a : Word) (v : Byte) : (busWrite a v s).hostRequest = s.hostRequest := by
  obtain ⟨base, _, _, _, _, _, _, _, _, _, _, _, hb, _, _, h⟩ := busWrite_cases s a v
  rcases hb with rfl | ⟨_, _, _, _, _, _, _, rfl⟩ <;> simp [h]

@[simp] theorem busWrite_shutdown (a : Word) (v : Byte) : (busWrite a v s).shutdown = s.shutdown := by
  obtain ⟨base, _, _, _, _, _, _, _, _, _, _, _, hb, _, _, h⟩ := busWrite_cases s a v
  rcases hb with rfl | ⟨_, _, _, _, _, _, _, rfl⟩ <;> simp [h]

@[simp] theorem busWrite_faults (a : Word) (v : Byte) : (busWrite a v s).faults = s.faults := by
  obtain ⟨base, _, _, _, _, _, _, _, _, _, _, _, hb, _, _, h⟩ := busWrite_cases s a v
  rcases hb with rfl | ⟨_, _, _, _, _, _, _, rfl⟩ <;> simp [h]

@[simp] theorem busWrite_stopped (a : Word) (v : Byte) : (busWrite a v s).stopped = s.stopped := by
  obtain ⟨base, _, _, _, _, _, _, _, _, _, _, _, hb, _, _, h⟩ := busWrite_cases s a v
  rcases hb with rfl | ⟨_, _, _, _, _, _, _, rfl⟩ <;> simp [h]

@[simp] theorem busWrite_launch (a : Word) (v : Byte) : (busWrite a v s).launch = s.launch := by
  obtain ⟨base, _, _, _, _, _, _, _, _, _, _, _, hb, _, _, h⟩ := busWrite_cases s a v
  rcases hb with rfl | ⟨r, i, b, _, hp, hc, _, rfl⟩
  · simp [h]
  · simp [h, State.setCell_launch _ _ _ _ hp hc]

@[simp] theorem busWrite_busLatch (a : Word) (v : Byte) : (busWrite a v s).busLatch = v := by
  obtain ⟨base, _, _, _, _, _, _, _, _, _, _, _, hb, _, _, h⟩ := busWrite_cases s a v
  simp [h]

/-- Only a write to the PPU ports reaches the NMI latch (61_ppu.md R522). -/
theorem busWrite_nmiPending (a : Word) (v : Byte) (h : isPort a = false) :
    (busWrite a v s).cpu.nmiPending = s.cpu.nmiPending := by
  obtain ⟨base, _, _, _, _, _, _, _, _, _, _, _, hb, hn, _, hw⟩ := busWrite_cases s a v
  simp [hw, hn h]

/-- Only a write to $8000-$FFFF reaches the IRQ latch and the mapper's registers (62 R641, R652). -/
theorem busWrite_irqPending (a : Word) (v : Byte) (h : a.toNat < 0x8000) :
    (busWrite a v s).cpu.irqPending = s.cpu.irqPending ∧ (busWrite a v s).mapper.regs = s.mapper.regs := by
  obtain ⟨base, _, _, _, _, _, _, _, _, _, _, _, hb, _, hq, hw⟩ := busWrite_cases s a v
  simp [hw, (hq h).1, (hq h).2]

/-- The frame of a bus write: every byte of every memory but the stored one (20_memory.md R81). -/
theorem busWrite_cell (a : Word) (v : Byte) (r : Region) (i : Nat) (h : storedCell s a ≠ some (r, i)) :
    (busWrite a v s).cell r i = s.cell r i := by
  obtain ⟨base, _, _, _, _, _, _, _, _, _, _, _, hb, _, _, hw⟩ := busWrite_cases s a v
  have hbase : (busWrite a v s).cell r i = base.cell r i := by
    rw [hw]; exact State.cell_congr _ _ rfl rfl rfl rfl rfl rfl rfl r i
  rw [hbase]
  rcases hb with rfl | ⟨r', i', b, hc, _, _, _, rfl⟩
  · rfl
  · exact State.cell_setCell_ne _ _ _ _ _ _ fun e => h (by rw [hc, e])

@[simp] theorem busWrite_ppu_secondary (a : Word) (v : Byte) : (busWrite a v s).ppu.secondary = s.ppu.secondary := by
  obtain ⟨base, _, _, _, _, _, _, _, _, _, _, _, hb, _, _, h⟩ := busWrite_cases s a v
  rcases hb with rfl | ⟨r, i, b, _, _, _, _, rfl⟩
  · simp [h, Ppu.withPorts]
  · rw [h]; simp only [Ppu.withPorts]; rw [State.setCell_ppu_eq]

@[simp] theorem busWrite_ppu_sprites (a : Word) (v : Byte) : (busWrite a v s).ppu.sprites = s.ppu.sprites := by
  obtain ⟨base, _, _, _, _, _, _, _, _, _, _, _, hb, _, _, h⟩ := busWrite_cases s a v
  rcases hb with rfl | ⟨r, i, b, _, _, _, _, rfl⟩
  · simp [h, Ppu.withPorts]
  · rw [h]; simp only [Ppu.withPorts]; rw [State.setCell_ppu_eq]

@[simp] theorem busWrite_ppu_scanline (a : Word) (v : Byte) : (busWrite a v s).ppu.scanline = s.ppu.scanline := by
  obtain ⟨base, _, _, _, _, _, _, _, _, _, _, _, hb, _, _, h⟩ := busWrite_cases s a v
  rcases hb with rfl | ⟨r, i, b, _, _, _, _, rfl⟩
  · simp [h, Ppu.withPorts]
  · rw [h]; simp only [Ppu.withPorts]; rw [State.setCell_ppu_eq]

@[simp] theorem busWrite_ppu_dot (a : Word) (v : Byte) : (busWrite a v s).ppu.dot = s.ppu.dot := by
  obtain ⟨base, _, _, _, _, _, _, _, _, _, _, _, hb, _, _, h⟩ := busWrite_cases s a v
  rcases hb with rfl | ⟨r, i, b, _, _, _, _, rfl⟩
  · simp [h, Ppu.withPorts]
  · rw [h]; simp only [Ppu.withPorts]; rw [State.setCell_ppu_eq]

@[simp] theorem busWrite_ppu_backFrame (a : Word) (v : Byte) : (busWrite a v s).ppu.backFrame = s.ppu.backFrame := by
  obtain ⟨base, _, _, _, _, _, _, _, _, _, _, _, hb, _, _, h⟩ := busWrite_cases s a v
  rcases hb with rfl | ⟨r, i, b, _, _, _, _, rfl⟩
  · simp [h, Ppu.withPorts]
  · rw [h]; simp only [Ppu.withPorts]; rw [State.setCell_ppu_eq]

@[simp] theorem busWrite_ppu_publishedFrame (a : Word) (v : Byte) : (busWrite a v s).ppu.publishedFrame = s.ppu.publishedFrame := by
  obtain ⟨base, _, _, _, _, _, _, _, _, _, _, _, hb, _, _, h⟩ := busWrite_cases s a v
  rcases hb with rfl | ⟨r, i, b, _, _, _, _, rfl⟩
  · simp [h, Ppu.withPorts]
  · rw [h]; simp only [Ppu.withPorts]; rw [State.setCell_ppu_eq]

end Sys2Proof.Machine
end

