-- ==== Sys2Proof/Laws/Stack.lean ====
section
/-! SUPPORT. RAM accesses and the stack in closed form, the frame of the addressing modes, and what taking an interrupt
does. -/

namespace Sys2Proof.Machine

variable (s : State)

theorem ramWindow_cellIndex (n : Nat) : ramWindow.cellIndex n = n % 0x800 := by
  simp [Window.cellIndex, Window.index, ramWindow]

/-- A read of internal RAM (20_memory.md R76). -/
theorem busRead_of_ram (a : Word) (h : a.toNat < 0x2000) :
    busRead a s = (s.cell .ram (a.toNat % 0x800), s.setBusLatch (s.cell .ram (a.toNat % 0x800))) := by
  have hs : busSelect s a = .window ramWindow := by
    unfold busSelect
    rw [if_neg (by omega), if_neg (by omega), if_pos h]
  unfold busRead
  rw [hs]
  dsimp only
  rw [ramWindow_cellIndex]
  rfl

/-- A write to internal RAM (R76). -/
theorem busWrite_of_ram (a : Word) (v : Byte) (h : a.toNat < 0x2000) :
    busWrite a v s = (s.setBusLatch v).setCell .ram (a.toNat % 0x800) v := by
  have hs : busSelect (s.setBusLatch v) a = .window ramWindow := by
    unfold busSelect
    rw [if_neg (by omega), if_neg (by omega), if_pos h]
  unfold busWrite
  dsimp only
  rw [if_neg (by omega), hs]
  dsimp only
  rw [ramWindow_cellIndex]
  rfl

/-- The cell a write to internal RAM stores to. -/
theorem storedCell_of_ram (a : Word) (h : a.toNat < 0x2000) : storedCell s a = some (.ram, a.toNat % 0x800) := by
  have hs : busSelect s a = .window ramWindow := by
    unfold busSelect
    rw [if_neg (by omega), if_neg (by omega), if_pos h]
  unfold storedCell
  rw [if_neg (by omega), hs]
  dsimp only
  rw [ramWindow_cellIndex]
  rfl

@[simp] theorem zext_toNat (b : Byte) : (zext b).toNat = b.toNat := by
  have := b.isLt
  simp [zext]
  omega

@[simp] theorem stackAddr_toNat (p : Byte) : (stackAddr p).toNat = 0x100 + p.toNat := by
  have := p.isLt
  simp [stackAddr, BitVec.toNat_add]
  omega

@[simp] theorem zeroPage_toNat (z i : Byte) : (zeroPage z i).toNat = (z + i).toNat := zext_toNat _

theorem stackAddr_mod (p : Byte) : (stackAddr p).toNat % 0x800 = 0x100 + p.toNat := by
  have := p.isLt
  rw [stackAddr_toNat]
  omega

/-- `Push` (43_stack.md R260): one byte of page 1, and S. -/
theorem push_eq (v : Byte) :
    push v s = ((s.setBusLatch v).setCell .ram (0x100 + s.cpu.s.toNat) v).setS (s.cpu.s - 1) := by
  have h := s.cpu.s.isLt
  unfold push
  dsimp only
  rw [busWrite_of_ram s _ v (by rw [stackAddr_toNat]; omega), stackAddr_mod]

/-- `Pull` (R261): S, and the byte of page 1 it then points to. -/
theorem pull_eq :
    pull s = (s.cell .ram (0x100 + (s.cpu.s + 1).toNat),
      (s.setS (s.cpu.s + 1)).setBusLatch (s.cell .ram (0x100 + (s.cpu.s + 1).toNat))) := by
  have h := (s.cpu.s + 1).isLt
  unfold pull
  dsimp only
  rw [busRead_of_ram _ _ (by rw [stackAddr_toNat]; simp only [State.setS_cpu]; omega), stackAddr_mod]
  simp

/-- `Push16` (R262). -/
theorem push16_eq (w : Word) : push16 w s =
    ((((s.setBusLatch (loByte w)).setCell .ram (0x100 + s.cpu.s.toNat) (hiByte w)).setCell .ram
      (0x100 + (s.cpu.s - 1).toNat) (loByte w))).setS (s.cpu.s - 1 - 1) := by
  unfold push16
  rw [push_eq, push_eq]
  rfl

/-- `Pull16` (R262). -/
theorem pull16_eq : pull16 s =
    (mkWord (s.cell .ram (0x100 + (s.cpu.s + 1 + 1).toNat)) (s.cell .ram (0x100 + (s.cpu.s + 1).toNat)),
      (s.setS (s.cpu.s + 1 + 1)).setBusLatch (s.cell .ram (0x100 + (s.cpu.s + 1 + 1).toNat))) := by
  unfold pull16
  dsimp only
  rw [pull_eq s]
  rw [pull_eq]
  simp
  rfl

/-- The pointer reads change what a bus read changes. -/
theorem locate_st (a : Addr) : (locate a s).st = s ∨ ∃ p q, (locate a s).st = (busRead q (busRead p s).2).2 := by
  cases a <;> simp only [locate, readPointer, true_or] <;> exact .inr ⟨_, _, rfl⟩

@[simp] theorem locate_cpu (a : Addr) : (locate a s).st.cpu = s.cpu := by
  rcases locate_st s a with h | ⟨p, q, h⟩ <;> simp [h]

@[simp] theorem locate_ram (a : Addr) : (locate a s).st.ram = s.ram := by
  rcases locate_st s a with h | ⟨p, q, h⟩ <;> simp [h]

@[simp] theorem locate_mapper (a : Addr) : (locate a s).st.mapper = s.mapper := by
  rcases locate_st s a with h | ⟨p, q, h⟩ <;> simp [h]

@[simp] theorem locate_launch (a : Addr) : (locate a s).st.launch = s.launch := by
  rcases locate_st s a with h | ⟨p, q, h⟩ <;> simp [h]

@[simp] theorem locate_hostRequest (a : Addr) : (locate a s).st.hostRequest = s.hostRequest := by
  rcases locate_st s a with h | ⟨p, q, h⟩ <;> simp [h]

@[simp] theorem locate_shutdown (a : Addr) : (locate a s).st.shutdown = s.shutdown := by
  rcases locate_st s a with h | ⟨p, q, h⟩ <;> simp [h]

@[simp] theorem locate_faults (a : Addr) : (locate a s).st.faults = s.faults := by
  rcases locate_st s a with h | ⟨p, q, h⟩ <;> simp [h]

@[simp] theorem locate_stopped (a : Addr) : (locate a s).st.stopped = s.stopped := by
  rcases locate_st s a with h | ⟨p, q, h⟩ <;> simp [h]

@[simp] theorem locate_cell (a : Addr) (r : Region) (i : Nat) : (locate a s).st.cell r i = s.cell r i := by
  rcases locate_st s a with h | ⟨p, q, h⟩ <;> simp [h]

/-- An operand read changes what its one to three bus reads change. -/
theorem readSource_st (src : Source) : (readSource src s).st = s ∨
    ∃ a, src = .mem a ∧ (readSource src s).st = (busRead (locate a s).ea (locate a s).st).2 := by
  cases src with
  | acc => exact .inl rfl
  | imm b => exact .inl rfl
  | mem a => exact .inr ⟨a, rfl, rfl⟩

@[simp] theorem readSource_cpu (src : Source) : (readSource src s).st.cpu = s.cpu := by
  rcases readSource_st s src with h | ⟨a, _, h⟩ <;> simp [h]

@[simp] theorem readSource_ram (src : Source) : (readSource src s).st.ram = s.ram := by
  rcases readSource_st s src with h | ⟨a, _, h⟩ <;> simp [h]

@[simp] theorem readSource_mapper (src : Source) : (readSource src s).st.mapper = s.mapper := by
  rcases readSource_st s src with h | ⟨a, _, h⟩ <;> simp [h]

@[simp] theorem readSource_launch (src : Source) : (readSource src s).st.launch = s.launch := by
  rcases readSource_st s src with h | ⟨a, _, h⟩ <;> simp [h]

@[simp] theorem readSource_hostRequest (src : Source) : (readSource src s).st.hostRequest = s.hostRequest := by
  rcases readSource_st s src with h | ⟨a, _, h⟩ <;> simp [h]

@[simp] theorem readSource_shutdown (src : Source) : (readSource src s).st.shutdown = s.shutdown := by
  rcases readSource_st s src with h | ⟨a, _, h⟩ <;> simp [h]

@[simp] theorem readSource_faults (src : Source) : (readSource src s).st.faults = s.faults := by
  rcases readSource_st s src with h | ⟨a, _, h⟩ <;> simp [h]

@[simp] theorem readSource_stopped (src : Source) : (readSource src s).st.stopped = s.stopped := by
  rcases readSource_st s src with h | ⟨a, _, h⟩ <;> simp [h]

@[simp] theorem readSource_cell (src : Source) (r : Region) (i : Nat) : (readSource src s).st.cell r i = s.cell r i := by
  rcases readSource_st s src with h | ⟨a, _, h⟩ <;> simp [h]

/-- A word read answers where neither byte is a port, and then changes the latch alone (20_memory.md R90, R91). -/
theorem readWord_ok (a : Word) (h : (isPort a || isPort (a + 1)) = false) : ∃ w bl, readWord a s = .ok (w, s.setBusLatch bl) := by
  have h1 : isPort a = false := by simpa using (Bool.or_eq_false_iff.mp h).1
  have h2 : isPort (a + 1) = false := by simpa using (Bool.or_eq_false_iff.mp h).2
  unfold readWord
  simp only [h1, h2, Bool.or_self, Bool.false_eq_true, if_false]
  exact ⟨_, _, by rw [busRead_not_port _ _ h2, busRead_not_port _ _ h1]; rfl⟩

/-- A read of $8000-$FFFF is of PRG ROM, through the current banks (20_memory.md R79; 62_mappers_cartridge.md R615). -/
theorem busRead_of_rom (a : Word) (h : 0x8000 ≤ a.toNat) : ∃ i, ∀ t : State, t.launch = s.launch →
    t.mapper.regs = s.mapper.regs → busRead a t = (s.cell .prgRom i, t.setBusLatch (s.cell .prgRom i)) := by
  have hw : (prgWindow s.launch.cart s.mapper.regs a).region = .prgRom := by unfold prgWindow; split <;> rfl
  refine ⟨(prgWindow s.launch.cart s.mapper.regs a).cellIndex a.toNat, fun t hl hm => ?_⟩
  have hc : ∀ i, t.cell .prgRom i = s.cell .prgRom i := fun i => by simp only [State.cell, State.mem, hl]
  unfold busRead busSelect
  rw [if_pos h, hl, hm]
  simp only [hw, hc]

theorem vector_in_rom (k : IntKind) : 0x8000 ≤ k.vector.toNat ∧ 0x8000 ≤ (k.vector + 1).toNat := by cases k <;> decide

theorem vector_not_port (k : IntKind) : (isPort k.vector || isPort (k.vector + 1)) = false := by cases k <;> decide

/-- The word at a vector, read through the current banks (60_exceptions.md R410). -/
def vectorWordAt (k : IntKind) : Word := mkWord (busRead (k.vector + 1) s).1 (busRead k.vector s).1

/-- A vector fetch in a state with the cartridge and the mapper registers of `s`: it answers the vector's word, or faults
because the word is $FFFF (60_exceptions.md R410); its high byte is then in the latch. -/
theorem vectorFetch_eq (k : IntKind) (t : State) (hl : t.launch = s.launch) (hm : t.mapper.regs = s.mapper.regs) :
    vectorFetch k.vector t =
      if vectorWordAt s k = 0xFFFF then .error (.badVector k.vector (t.setBusLatch (hiByte (vectorWordAt s k))))
      else .ok (vectorWordAt s k, t.setBusLatch (hiByte (vectorWordAt s k))) := by
  obtain ⟨i, hi⟩ := busRead_of_rom s k.vector (vector_in_rom k).1
  obtain ⟨j, hj⟩ := busRead_of_rom s (k.vector + 1) (vector_in_rom k).2
  have hw : vectorWordAt s k = mkWord (s.cell .prgRom j) (s.cell .prgRom i) := by
    unfold vectorWordAt
    rw [hi s rfl rfl, hj s rfl rfl]
  have hr : readWord k.vector t = .ok (vectorWordAt s k, t.setBusLatch (hiByte (vectorWordAt s k))) := by
    rw [hw, hiByte_mkWord]
    unfold readWord
    simp only [vector_not_port, Bool.false_eq_true, if_false]
    rw [hi t hl hm]
    dsimp only
    rw [hj (t.setBusLatch (s.cell .prgRom i)) hl hm]
    rfl
  unfold vectorFetch
  rw [hr]

@[simp] theorem pushReturn_launch (k : IntKind) : (pushReturn k s).launch = s.launch := by
  cases k <;> simp only [pushReturn, push_eq, push16_eq] <;> rfl

@[simp] theorem pushReturn_mapper_regs (k : IntKind) : (pushReturn k s).mapper.regs = s.mapper.regs := by
  cases k <;> simp only [pushReturn, push_eq, push16_eq] <;> rfl

/-- Everything taking an interrupt can do (R409, R410, R421): the pushes and I, the vector's high byte in the latch, then PC
and the cost, or the fault. -/
theorem takeInterrupt_eq (k : IntKind) : takeInterrupt k s =
    let t := ((pushReturn k s).setI true).setBusLatch (hiByte (vectorWordAt s k))
    if vectorWordAt s k = 0xFFFF then .fault (.badVector k.vector t) else .next ((t.setPc (vectorWordAt s k)).setSleep 6) := by
  unfold takeInterrupt
  rw [vectorFetch_eq s k _ (by simp) (by simp)]
  by_cases hw : vectorWordAt s k = 0xFFFF
  · simp only [if_pos hw]
  · simp only [if_neg hw]

/-- Return from interrupt in closed form (45_flags_system.md R299). -/
theorem returnFromInterrupt_eq : returnFromInterrupt s =
    (((s.loadStatus (s.cell .ram (0x100 + (s.cpu.s + 1).toNat))).setS (s.cpu.s + 1 + 1 + 1)).setBusLatch
      (s.cell .ram (0x100 + (s.cpu.s + 1 + 1 + 1).toNat))).setPc
      (mkWord (s.cell .ram (0x100 + (s.cpu.s + 1 + 1 + 1).toNat)) (s.cell .ram (0x100 + (s.cpu.s + 1 + 1).toNat))) := by
  unfold returnFromInterrupt
  dsimp only
  rw [pull_eq, pull16_eq]
  simp
  rfl

end Sys2Proof.Machine
end

