-- ==== Sys2Proof/Laws/Clock.lean ====
section
/-! SUPPORT. The clock's handling of an outcome and the cases of a step and of a reset, each said once. -/

namespace Sys2Proof.Machine

@[simp] theorem handleOutcome_next (s : State) : handleOutcome (.next s) = .next s := rfl
@[simp] theorem handleOutcome_fault (f : Fault) : handleOutcome (.fault f) = .fault (noted f) := rfl
@[simp] theorem handleOutcome_refused (r : Refusal) : handleOutcome (.refused r) = .refused r := rfl

/-- Handling changes no next state. -/
theorem handleOutcome_eq_next {o : Outcome} {t : State} : handleOutcome o = .next t ↔ o = .next t := by
  cases o <;> simp

/-- A step answers a next state exactly where its move does, and the same one. -/
theorem step_eq_next {s t : State} : step s = .next t ↔ machineMove s = .next t := handleOutcome_eq_next

/-- All that a step which completes can be: a reset asked for, an idle move, or a system tick. -/
theorem step_next_cases {s t : State} (h : step s = .next t) :
    (s.hostRequest = some .powerOn ∧ powerCycle s = .next t) ∨
    (s.hostRequest = some .hardReset ∧ hardReset s = .next t) ∨
    (s.hostRequest = some .softReset ∧ softReset s = .next t) ∨
    (s.hostRequest = none ∧ (s.shutdown || s.stopped) = true ∧ t = s) ∨
    (s.hostRequest = none ∧ (s.shutdown || s.stopped) = false ∧ systemTick s = .next t) := by
  rw [step_eq_next] at h
  unfold machineMove at h
  split at h
  · exact .inl ⟨‹_›, h⟩
  · exact .inr (.inl ⟨‹_›, h⟩)
  · exact .inr (.inr (.inl ⟨‹_›, h⟩))
  · split at h
    · rename_i hr hi
      cases h
      exact .inr (.inr (.inr (.inl ⟨hr, hi, rfl⟩)))
    · rename_i hr hi
      exact .inr (.inr (.inr (.inr ⟨hr, Bool.eq_false_iff.mpr hi, h⟩)))

/-- All that a reset sequence can do (70_reset_and_hazards.md R702, R703; 60_exceptions.md R421): PC is the override or the
vector's word, with I and the cost; or the vector reads $FFFF, and I alone is set, the vector's high byte in the latch. -/
theorem resetSequence_eq (s : State) : resetSequence s =
    match s.launch.entryOverride with
    | some e => .next { s with cpu := { s.cpu with i := true, pc := e, sleep := 6 } }
    | none =>
      if vectorWordAt s .reset = 0xFFFF then
        .fault (.badVector 0xFFFC { s with cpu := { s.cpu with i := true }, busLatch := 0xFF })
      else .next { s with cpu := { s.cpu with i := true, pc := vectorWordAt s .reset, sleep := 6 } } := by
  unfold resetSequence
  cases s.launch.entryOverride with
  | some e => rfl
  | none =>
    rw [takeInterrupt_eq]
    dsimp only
    by_cases hw : vectorWordAt s .reset = 0xFFFF
    · rw [if_pos hw, if_pos hw, hw]
      rfl
    · rw [if_neg hw, if_neg hw]
      rfl

/-- A reset sequence that completes sets I, PC and sleep, and nothing else (70_reset_and_hazards.md R703). -/
theorem resetSequence_next {s t : State} (h : resetSequence s = .next t) :
    ∃ pc, t = { s with cpu := { s.cpu with i := true, pc := pc, sleep := 6 } } := by
  rw [resetSequence_eq] at h
  split at h
  · cases h
    exact ⟨_, rfl⟩
  · split at h <;> cases h
    exact ⟨_, rfl⟩

/-- A state that a step's fault leaves has the fault on record (60 R408, R421), so it is no end of a run. -/
theorem noted_after {f : Fault} {t : State} (h : (noted f).after = some t) : t.faults ≠ [] := by
  cases f <;> simp only [noted, Fault.after, Option.some.injEq, reduceCtorEq] at h <;> rw [← h] <;>
    exact List.cons_ne_nil _ _

/-- The same of every outcome handled: of a step's and of a launch's first reset. -/
theorem handleOutcome_after {o : Outcome} {f : Fault} {t : State} (h : handleOutcome o = .fault f) (ht : f.after = some t) :
    t.faults ≠ [] := by
  cases o <;> cases h
  exact noted_after ht

end Sys2Proof.Machine
end

