-- ==== Sys2Proof/Laws/Ppu.lean ====
section
/-! SUPPORT. What one PPU tick can change, and what it keeps. -/

namespace Sys2Proof.Machine

open Sys2Proof.Safety

/-- One background shift register after the shift and reload of dot `d` (61_ppu.md R557, R558), `low` its latch. -/
def shiftedReg (d : Nat) (low : Byte) (r : BitVec 16) : BitVec 16 :=
  if shiftDot d then (if (d - 1) % 8 = 0 then reloadLow (r <<< 1) low else r <<< 1) else r

/-- All that the shift and reload change. -/
theorem shiftAndReload_eq (p : Ppu) : shiftAndReload p = { p with
    bgPatLo := shiftedReg p.dot p.patLoLatch p.bgPatLo
    bgPatHi := shiftedReg p.dot p.patHiLatch p.bgPatHi
    bgAtLo := shiftedReg p.dot (fillByte (bit p.atLatch 0)) p.bgAtLo
    bgAtHi := shiftedReg p.dot (fillByte (bit p.atLatch 1)) p.bgAtHi } := by
  unfold shiftAndReload shiftedReg
  by_cases h : shiftDot p.dot = true
  · by_cases k : (p.dot - 1) % 8 = 0
    · simp only [if_pos h, if_pos k]; rfl
    · simp only [if_pos h, if_neg k]; rfl
  · simp only [if_neg h]

/-- All that the flag actions change (R575, R577). -/
theorem flagActions_ppu (s : State) : ∃ vb hit ov,
    (flagActions s).ppu = { s.ppu with vblank := vb, sprite0Hit := hit, spriteOverflow := ov } := by
  unfold flagActions
  split
  · exact ⟨_, _, _, rfl⟩
  · split <;> exact ⟨_, _, _, rfl⟩

/-- All that a pixel step changes (R566 to R569). -/
theorem pixelStep_eq (s : State) : ∃ hit, pixelStep s = s.setPpu { s.ppu with
    backFrame := (pixelStep s).ppu.backFrame
    sprite0Hit := hit } := by
  unfold pixelStep outputPixel
  dsimp only
  split
  · split <;> exact ⟨_, rfl⟩
  · exact ⟨_, rfl⟩

/-- The pixel that a pixel step draws: none off the visible dots; the backdrop or the composed pixel's entry (R566, R568). -/
theorem pixelStep_backFrame (s : State) : (pixelStep s).ppu.backFrame =
    let p := s.ppu
    let x := p.dot - 1
    let offset := if p.renderingEnabled
      then composeOffset (backgroundPixel p x) (backgroundPalette p) (spriteAt p x) x else 0
    if p.scanline < 240 ∧ 1 ≤ p.dot ∧ p.dot ≤ 256 then
      framePut p.backFrame (p.scanline * 256 + x) (colourOf (ppuRead s (BitVec.ofNat 14 (0x3F00 + offset))))
    else p.backFrame := by
  unfold pixelStep visibleLine outputPixel
  simp only [Bool.and_eq_true, decide_eq_true_eq]
  by_cases h : s.ppu.scanline < 240 ∧ 1 ≤ s.ppu.dot ∧ s.ppu.dot ≤ 256
  · rw [if_pos h, if_pos ⟨⟨h.1, h.2.1⟩, h.2.2⟩]
    split <;> rfl
  · rw [if_neg h, if_neg (fun k => h ⟨k.1.1, k.1.2, k.2⟩)]

/-- The background fetches' dots (R553). -/
theorem fetchDot_iff (d : Nat) : fetchDot d = true ↔ (1 ≤ d ∧ d ≤ 256) ∨ (321 ≤ d ∧ d ≤ 336) := by
  simp [fetchDot]

/-- The background shifts' dots (R557). -/
theorem shiftDot_iff (d : Nat) : shiftDot d = true ↔ (2 ≤ d ∧ d ≤ 257) ∨ (321 ≤ d ∧ d ≤ 337) := by
  simp [shiftDot]

/-- All that a background fetch changes (R553, R554): the one latch of its dot, and `v` at the fourth fetch's (R559). -/
theorem backgroundFetch_eq (s : State) : backgroundFetch s = s.setPpu { s.ppu with
    ntLatch := if fetchDot s.ppu.dot = true ∧ s.ppu.dot % 8 = 2
      then ppuRead s (nametableAddr s.ppu.v) else s.ppu.ntLatch
    atLatch := if fetchDot s.ppu.dot = true ∧ s.ppu.dot % 8 = 4
      then attributeBits s.ppu.v (ppuRead s (attributeAddr s.ppu.v)) else s.ppu.atLatch
    patLoLatch := if fetchDot s.ppu.dot = true ∧ s.ppu.dot % 8 = 6
      then ppuRead s (patternAddr s.ppu 0) else s.ppu.patLoLatch
    patHiLatch := if fetchDot s.ppu.dot = true ∧ s.ppu.dot % 8 = 0
      then ppuRead s (patternAddr s.ppu 1) else s.ppu.patHiLatch
    v := if fetchDot s.ppu.dot = true ∧ s.ppu.dot % 8 = 0 then incCoarseX s.ppu.v else s.ppu.v } := by
  unfold backgroundFetch
  dsimp only
  by_cases h : fetchDot s.ppu.dot = true
  · have hd := h
    rw [fetchDot_iff] at hd
    rw [if_pos h]
    simp only [h, true_and]
    split
    · simp [show s.ppu.dot % 8 = 2 by omega]
    · simp [show s.ppu.dot % 8 = 4 by omega]
    · simp [show s.ppu.dot % 8 = 6 by omega]
    · simp [show s.ppu.dot % 8 = 0 by omega]
    · rename_i h1 h3 h5 h7
      have h1 : (s.ppu.dot - 1) % 8 ≠ 1 := h1
      have h3 : (s.ppu.dot - 1) % 8 ≠ 3 := h3
      have h5 : (s.ppu.dot - 1) % 8 ≠ 5 := h5
      have h7 : (s.ppu.dot - 1) % 8 ≠ 7 := h7
      simp only [show s.ppu.dot % 8 ≠ 0 by omega, show s.ppu.dot % 8 ≠ 2 by omega, show s.ppu.dot % 8 ≠ 4 by omega,
        show s.ppu.dot % 8 ≠ 6 by omega, if_false]
      rfl
  · simp only [h, false_and, Bool.false_eq_true, if_false]
    rfl

/-- All that the sprite actions change (R563 to R565): each list at its dots, and the overflow flag. -/
theorem spriteActions_eq (s : State) : ∃ ov, spriteActions s = s.setPpu { s.ppu with
    secondary := if s.ppu.dot = 1 then []
      else if s.ppu.dot = 257 ∧ visibleLine s.ppu.scanline then (spritesInRange s).take 8
      else s.ppu.secondary
    sprites := if s.ppu.dot = 321 then s.ppu.secondary.map (fetchSprite s) else s.ppu.sprites
    spriteOverflow := ov } := by
  unfold spriteActions
  by_cases h1 : s.ppu.dot = 1
  · rw [if_pos h1, if_pos h1, if_neg (by omega)]
    exact ⟨_, rfl⟩
  · rw [if_neg h1, if_neg h1]
    by_cases h2 : s.ppu.dot = 257 ∧ visibleLine s.ppu.scanline
    · rw [if_pos h2, if_pos h2, if_neg (by omega)]
      exact ⟨_, rfl⟩
    · rw [if_neg h2, if_neg h2]
      split <;> exact ⟨_, rfl⟩

/-- All that the counter advance changes (R550, R551). -/
theorem advanceDot_eq (p : Ppu) : ∃ l d o, advanceDot p = { p with scanline := l, dot := d, oddFrame := o } := by
  unfold advanceDot
  split
  · exact ⟨_, _, _, rfl⟩
  · split
    · exact ⟨_, _, _, rfl⟩
    · split <;> exact ⟨_, _, _, rfl⟩

/-- The pixel that a frame shows at `i` after one pixel is drawn. -/
theorem frameGet_framePut (f : Frame) (i j : Nat) (c : Colour) :
    frameGet (framePut f i c) j = if j = i then some c else frameGet f j := by
  induction f with
  | nil => simp [framePut, frameGet, eq_comm]
  | cons e f ih =>
    obtain ⟨k, d⟩ := e
    unfold framePut
    split
    · simp [frameGet, eq_comm]
    · split
      · rename_i h
        subst h
        simp only [frameGet, eq_comm]
        split <;> simp_all
      · rename_i h1 h2
        simp only [frameGet, ih]
        split
        · rename_i h
          subst h
          rw [if_neg h2]
        · rfl

/-- The mapper's scanline hook changes nothing in the PPU (R571). -/
theorem scanlineHook_ppu (s : State) : (scanlineHook s).ppu = s.ppu := by
  unfold scanlineHook onScanline
  split
  · split <;> rfl
  · rfl

/-- `t` shows the fetches of a line the same as `s`: the cartridge, the mapper, the PPU's memories, the line and the control
register. -/
structure SameView (s t : State) : Prop where
  launch : t.launch = s.launch
  mapper : t.mapper = s.mapper
  vram : t.ppu.vram = s.ppu.vram
  palette : t.ppu.palette = s.ppu.palette
  oam : t.ppu.oam = s.ppu.oam
  scanline : t.ppu.scanline = s.ppu.scanline
  ctrl : t.ppu.ctrl = s.ppu.ctrl

theorem SameView.ppuRead {s t : State} (h : SameView s t) (a : PpuAddr) : ppuRead t a = ppuRead s a :=
  ppuRead_congr s a h.launch h.mapper h.vram h.palette

/-- Sprite evaluation finds the same entries. -/
theorem SameView.spritesInRange {s t : State} (h : SameView s t) : spritesInRange t = spritesInRange s := by
  have hc : ∀ i, t.cell .oam i = s.cell .oam i := fun i => by simp only [State.cell, State.mem, h.oam]
  unfold Machine.spritesInRange oamEntry Ppu.spriteHeight
  simp only [hc, h.scanline, h.ctrl]

/-- Sprite fetches give the same descriptors. -/
theorem SameView.fetchSprite {s t : State} (h : SameView s t) : fetchSprite t = fetchSprite s := by
  funext e
  unfold Machine.fetchSprite spritePatternAddr Ppu.spriteHeight
  simp only [h.ppuRead, h.scanline, h.ctrl]

/-- All that the actions of a rendering line change in the PPU, in R580's order: the shift and reload, the pixel of the state
after it, the fetch latches, `v`, and the sprite lists and flags. -/
theorem renderActions_ppu (s : State) : ∃ ov hit, (renderActions s).ppu = { shiftAndReload s.ppu with
    secondary := if s.ppu.dot = 1 then []
      else if s.ppu.dot = 257 ∧ visibleLine s.ppu.scanline then (spritesInRange s).take 8
      else s.ppu.secondary
    sprites := if s.ppu.dot = 321 then s.ppu.secondary.map (fetchSprite s) else s.ppu.sprites
    spriteOverflow := ov
    sprite0Hit := hit
    ntLatch := if fetchDot s.ppu.dot = true ∧ s.ppu.dot % 8 = 2
      then ppuRead s (nametableAddr s.ppu.v) else s.ppu.ntLatch
    atLatch := if fetchDot s.ppu.dot = true ∧ s.ppu.dot % 8 = 4
      then attributeBits s.ppu.v (ppuRead s (attributeAddr s.ppu.v)) else s.ppu.atLatch
    patLoLatch := if fetchDot s.ppu.dot = true ∧ s.ppu.dot % 8 = 6
      then ppuRead s (patternAddr s.ppu 0) else s.ppu.patLoLatch
    patHiLatch := if fetchDot s.ppu.dot = true ∧ s.ppu.dot % 8 = 0
      then ppuRead s (patternAddr s.ppu 1) else s.ppu.patHiLatch
    backFrame := (pixelStep (s.setPpu (shiftAndReload s.ppu))).ppu.backFrame
    v := (scrollActions { s.ppu with
      v := if fetchDot s.ppu.dot = true ∧ s.ppu.dot % 8 = 0 then incCoarseX s.ppu.v else s.ppu.v }).v } := by
  unfold renderActions
  dsimp only
  rw [scanlineHook_ppu]
  obtain ⟨hit, e⟩ := pixelStep_eq (s.setPpu (shiftAndReload s.ppu))
  have hu : SameView s (pixelStep (s.setPpu (shiftAndReload s.ppu))) := by
    rw [e, shiftAndReload_eq]
    exact ⟨rfl, rfl, rfl, rfl, rfl, rfl, rfl⟩
  have e := congrArg State.ppu e
  rw [State.setPpu_ppu, State.setPpu_ppu] at e
  generalize pixelStep (s.setPpu (shiftAndReload s.ppu)) = u at e hu ⊢
  generalize u.ppu.backFrame = bf at e ⊢
  rw [backgroundFetch_eq u]
  generalize hw : (u.setPpu _).setPpu (scrollActions (u.setPpu _).ppu) = w
  have hv : SameView s w := by
    rw [← hw]
    exact ⟨hu.launch, hu.mapper, hu.vram, hu.palette, hu.oam, hu.scanline, hu.ctrl⟩
  obtain ⟨ov, e3⟩ := spriteActions_eq w
  refine ⟨ov, hit, ?_⟩
  rw [e3, hv.spritesInRange, hv.fetchSprite, ← hw]
  simp only [State.setPpu_ppu, scrollActions, hu.ppuRead]
  rw [e, shiftAndReload_eq]
  rfl

/-- All that a tick changes in the PPU (R580): flags and publication, then the rendering actions or the pixel, then the
counters. -/
theorem ppuTick_ppu (s : State) : ∃ vb hit ov l d o,
    let u := (flagActions s).setPpu { s.ppu with
      vblank := vb
      sprite0Hit := hit
      spriteOverflow := ov
      publishedFrame := if s.ppu.scanline = 240 ∧ s.ppu.dot = 0 then s.ppu.backFrame else s.ppu.publishedFrame }
    (ppuTick s).ppu =
      { (if renderingLine s.ppu.scanline && s.ppu.renderingEnabled then renderActions u else pixelStep u).ppu with
        scanline := l
        dot := d
        oddFrame := o } := by
  obtain ⟨vb, hit, ov, e⟩ := flagActions_ppu s
  obtain ⟨l, d, o, e2⟩ := advanceDot_eq (dotActions s).ppu
  refine ⟨vb, hit, ov, l, d, o, ?_⟩
  have hp : publishFrame (flagActions s).ppu = { s.ppu with
      vblank := vb
      sprite0Hit := hit
      spriteOverflow := ov
      publishedFrame := if s.ppu.scanline = 240 ∧ s.ppu.dot = 0 then s.ppu.backFrame else s.ppu.publishedFrame } := by
    rw [e]
    unfold publishFrame
    dsimp only
    by_cases h : s.ppu.scanline = 240 ∧ s.ppu.dot = 0
    · rw [if_pos h, if_pos h]
    · rw [if_neg h, if_neg h]
  rw [show (ppuTick s).ppu = advanceDot (dotActions s).ppu from rfl, e2]
  unfold dotActions
  dsimp only
  rw [hp]
  rfl

/-- `t` differs from `s` only in what the PPU's clock may change: the PPU but for its three memories, the mapper's registers
and the two interrupt latches (61_ppu.md R580). -/
structure Ticked (s t : State) : Prop where
  eq : t = { s with
    ppu := t.ppu
    mapper := { s.mapper with regs := t.mapper.regs }
    cpu := { s.cpu with nmiPending := t.cpu.nmiPending, irqPending := t.cpu.irqPending } }
  vram : t.ppu.vram = s.ppu.vram
  palette : t.ppu.palette = s.ppu.palette
  oam : t.ppu.oam = s.ppu.oam

theorem Ticked.refl (s : State) : Ticked s s := ⟨rfl, rfl, rfl, rfl⟩

theorem Ticked.trans {s t u : State} (h : Ticked s t) (k : Ticked t u) : Ticked s u :=
  ⟨by rw [k.eq, h.eq], k.vram.trans h.vram, k.palette.trans h.palette, k.oam.trans h.oam⟩

theorem ticked_setPpu (s : State) (p : Ppu) (hv : p.vram = s.ppu.vram) (hp : p.palette = s.ppu.palette)
    (ho : p.oam = s.ppu.oam) : Ticked s (s.setPpu p) := ⟨rfl, hv, hp, ho⟩

theorem ticked_flagActions (s : State) : Ticked s (flagActions s) := by
  unfold flagActions
  split
  · exact ⟨rfl, rfl, rfl, rfl⟩
  · split
    · exact ⟨rfl, rfl, rfl, rfl⟩
    · exact Ticked.refl s

theorem ticked_publishFrame (s : State) : Ticked s (s.setPpu (publishFrame s.ppu)) := by
  unfold publishFrame
  split <;> exact ⟨rfl, rfl, rfl, rfl⟩

theorem ticked_shiftAndReload (s : State) : Ticked s (s.setPpu (shiftAndReload s.ppu)) := by
  unfold shiftAndReload
  split
  · split <;> exact ⟨rfl, rfl, rfl, rfl⟩
  · exact ⟨rfl, rfl, rfl, rfl⟩

theorem ticked_pixelStep (s : State) : Ticked s (pixelStep s) := by
  obtain ⟨_, e⟩ := pixelStep_eq s
  rw [e]
  exact ⟨rfl, rfl, rfl, rfl⟩

theorem ticked_backgroundFetch (s : State) : Ticked s (backgroundFetch s) := by
  rw [backgroundFetch_eq]
  exact ⟨rfl, rfl, rfl, rfl⟩

theorem ticked_scrollActions (s : State) : Ticked s (s.setPpu (scrollActions s.ppu)) := ⟨rfl, rfl, rfl, rfl⟩

theorem ticked_spriteActions (s : State) : Ticked s (spriteActions s) := by
  obtain ⟨_, e⟩ := spriteActions_eq s
  rw [e]
  exact ⟨rfl, rfl, rfl, rfl⟩

theorem ticked_onScanline (s : State) : Ticked s (onScanline s) := by
  unfold onScanline
  split <;> exact ⟨rfl, rfl, rfl, rfl⟩

theorem ticked_scanlineHook (s : State) : Ticked s (scanlineHook s) := by
  unfold scanlineHook
  split
  · exact ticked_onScanline s
  · exact Ticked.refl s

theorem ticked_renderActions (s : State) : Ticked s (renderActions s) := by
  unfold renderActions
  dsimp only
  exact (ticked_shiftAndReload s).trans <| (ticked_pixelStep _).trans <| (ticked_backgroundFetch _).trans <|
    (ticked_scrollActions _).trans <| (ticked_spriteActions _).trans (ticked_scanlineHook _)

theorem ticked_dotActions (s : State) : Ticked s (dotActions s) := by
  unfold dotActions
  dsimp only
  refine (ticked_flagActions s).trans <| (ticked_publishFrame _).trans ?_
  split
  · exact ticked_renderActions _
  · exact ticked_pixelStep _

theorem ticked_advanceDot (s : State) : Ticked s (s.setPpu (advanceDot s.ppu)) := by
  unfold advanceDot
  split
  · exact ⟨rfl, rfl, rfl, rfl⟩
  · split
    · exact ⟨rfl, rfl, rfl, rfl⟩
    · split <;> exact ⟨rfl, rfl, rfl, rfl⟩

/-- Everything one PPU tick can change. -/
theorem ticked_ppuTick (s : State) : Ticked s (ppuTick s) := by
  unfold ppuTick
  dsimp only
  exact (ticked_dotActions s).trans (ticked_advanceDot _)

/-- Everything a system tick's three PPU ticks can change (70_reset_and_hazards.md R720). -/
theorem ticked_threeDots (s : State) : Ticked s (ppuTick (ppuTick (ppuTick s))) := by
  exact (ticked_ppuTick s).trans <| (ticked_ppuTick _).trans (ticked_ppuTick _)

/-- Drawing a pixel of the frame keeps the frame's form. -/
theorem frameWf_framePut (f : Frame) (hi i : Nat) (c : Colour) (h : i < hi) (hf : frameWf hi f = true) :
    frameWf hi (framePut f i c) = true := by
  induction f generalizing hi with
  | nil => simp [framePut, frameWf, h]
  | cons e f ih =>
    obtain ⟨j, d⟩ := e
    simp only [frameWf, Bool.and_eq_true, decide_eq_true_eq] at hf
    simp only [framePut]
    split
    · simp only [frameWf, Bool.and_eq_true, decide_eq_true_eq]
      exact ⟨h, by assumption, hf.2⟩
    · split
      · subst_vars; simp only [frameWf, Bool.and_eq_true, decide_eq_true_eq]; exact ⟨h, hf.2⟩
      · simp only [frameWf, Bool.and_eq_true, decide_eq_true_eq]
        exact ⟨hf.1, ih j (by omega) hf.2⟩

/-- The PPU's ranges: both frames' form, the counters, the two sprite lists (61_ppu.md R500). -/
structure PpuOk (p : Ppu) : Prop where
  back : frameWf 61440 p.backFrame = true
  published : frameWf 61440 p.publishedFrame = true
  scanline : p.scanline ≤ 261
  dot : p.dot ≤ 340
  secondary : p.secondary.length ≤ 8
  sprites : p.sprites.length ≤ 8

theorem ppuOk_flagActions {s : State} (h : PpuOk s.ppu) : PpuOk (flagActions s).ppu := by
  unfold flagActions
  split
  · exact ⟨h.1, h.2, h.3, h.4, h.5, h.6⟩
  · split
    · exact ⟨h.1, h.2, h.3, h.4, h.5, h.6⟩
    · exact h

theorem ppuOk_publishFrame {p : Ppu} (h : PpuOk p) : PpuOk (publishFrame p) := by
  unfold publishFrame
  split
  · exact ⟨h.1, h.1, h.3, h.4, h.5, h.6⟩
  · exact h

theorem ppuOk_shiftAndReload {p : Ppu} (h : PpuOk p) : PpuOk (shiftAndReload p) := by
  unfold shiftAndReload
  split
  · split <;> exact ⟨h.1, h.2, h.3, h.4, h.5, h.6⟩
  · exact h

theorem ppuOk_pixelStep {s : State} (h : PpuOk s.ppu) : PpuOk (pixelStep s).ppu := by
  unfold pixelStep
  split
  · rename_i hc
    simp only [visibleLine, Bool.and_eq_true, decide_eq_true_eq] at hc
    unfold outputPixel
    dsimp only
    split <;> exact ⟨frameWf_framePut _ _ _ _ (by omega) h.1, h.2, h.3, h.4, h.5, h.6⟩
  · exact h

theorem ppuOk_backgroundFetch {s : State} (h : PpuOk s.ppu) : PpuOk (backgroundFetch s).ppu := by
  rw [backgroundFetch_eq]
  exact ⟨h.1, h.2, h.3, h.4, h.5, h.6⟩

theorem ppuOk_scrollActions {p : Ppu} (h : PpuOk p) : PpuOk (scrollActions p) := ⟨h.1, h.2, h.3, h.4, h.5, h.6⟩

theorem ppuOk_spriteActions {s : State} (h : PpuOk s.ppu) : PpuOk (spriteActions s).ppu := by
  unfold spriteActions
  split
  · exact ⟨h.1, h.2, h.3, h.4, Nat.zero_le _, h.6⟩
  · split
    · refine ⟨h.1, h.2, h.3, h.4, ?_, h.6⟩
      exact List.length_take_le 8 _
    · split
      · refine ⟨h.1, h.2, h.3, h.4, h.5, ?_⟩
        show (List.map _ _).length ≤ 8
        rw [List.length_map]
        exact h.5
      · exact h

theorem ppuOk_renderActions {s : State} (h : PpuOk s.ppu) : PpuOk (renderActions s).ppu := by
  unfold renderActions
  dsimp only
  rw [scanlineHook_ppu]
  exact ppuOk_spriteActions <| ppuOk_scrollActions <| ppuOk_backgroundFetch <| ppuOk_pixelStep <| ppuOk_shiftAndReload h

theorem ppuOk_dotActions {s : State} (h : PpuOk s.ppu) : PpuOk (dotActions s).ppu := by
  unfold dotActions
  dsimp only
  have h1 : PpuOk ((flagActions s).setPpu (publishFrame (flagActions s).ppu)).ppu := ppuOk_publishFrame (ppuOk_flagActions h)
  split
  · exact ppuOk_renderActions h1
  · exact ppuOk_pixelStep h1

theorem ppuOk_advanceDot {p : Ppu} (h : PpuOk p) : PpuOk (advanceDot p) := by
  unfold advanceDot
  split
  · exact ⟨h.1, h.2, Nat.zero_le _, Nat.zero_le _, h.5, h.6⟩
  · split
    · rename_i hd
      exact ⟨h.1, h.2, h.3, hd, h.5, h.6⟩
    · split
      · rename_i hl
        exact ⟨h.1, h.2, hl, Nat.zero_le _, h.5, h.6⟩
      · exact ⟨h.1, h.2, Nat.zero_le _, Nat.zero_le _, h.5, h.6⟩

/-- A PPU tick keeps the PPU's ranges. -/
theorem ppuOk_ppuTick {s : State} (h : PpuOk s.ppu) : PpuOk (ppuTick s).ppu := ppuOk_advanceDot (ppuOk_dotActions h)

/-- The mapper's registers are of the cartridge's variant and its serial counter is in 0..4 (62_mappers_cartridge.md R602,
R630). -/
def regsOk (n : Byte) (m : MapperRegs) : Bool := serialCountOk m && variantMatches n m

theorem regsOk_onScanline {n : Byte} {s : State} (h : regsOk n s.mapper.regs = true) :
    regsOk n (onScanline s).mapper.regs = true := by
  unfold onScanline
  split <;> rename_i hr <;> simp only [hr] at h ⊢ <;> exact h

theorem regsOk_mapperWrite {n : Byte} {s : State} (a : Word) (d : Byte) (h : regsOk n s.mapper.regs = true) :
    regsOk n (mapperWrite a d s).mapper.regs = true := by
  unfold mapperWrite
  split <;> rename_i hr
  · simp only [hr] at h ⊢; exact h
  · rename_i r
    simp only [hr] at h
    simp only [regsOk, serialCountOk, variantMatches, Bool.and_eq_true, decide_eq_true_eq] at h ⊢
    refine ⟨?_, h.2⟩
    unfold Mmc1.write
    dsimp only
    split
    · exact Nat.zero_le _
    · split
      · split <;> exact Nat.zero_le _
      · show r.count + 1 ≤ 4
        omega
  · simp only [hr] at h
    exact h

theorem regsOk_ppuTick {n : Byte} {s : State} (h : regsOk n s.mapper.regs = true) :
    regsOk n (ppuTick s).mapper.regs = true := by
  have hf : (flagActions s).mapper = s.mapper := by
    unfold flagActions
    split
    · rfl
    · split <;> rfl
  have hp : ∀ t : State, (pixelStep t).mapper = t.mapper := fun t => by
    obtain ⟨_, e⟩ := pixelStep_eq t
    rw [e, State.setPpu_mapper]
  have hb : ∀ t : State, (backgroundFetch t).mapper = t.mapper := fun t => by
    rw [backgroundFetch_eq, State.setPpu_mapper]
  have hs : ∀ t : State, (spriteActions t).mapper = t.mapper := fun t => by
    obtain ⟨_, e⟩ := spriteActions_eq t
    rw [e, State.setPpu_mapper]
  show regsOk n (dotActions s).mapper.regs = true
  unfold dotActions
  dsimp only
  split
  · unfold renderActions
    dsimp only
    unfold scanlineHook
    split
    · exact regsOk_onScanline (by rw [hs]; simp only [State.setPpu_mapper]; rw [hb, hp]; simp only [State.setPpu_mapper]; rw [hf]; exact h)
    · rw [hs]; simp only [State.setPpu_mapper]; rw [hb, hp]; simp only [State.setPpu_mapper]; rw [hf]; exact h
  · rw [hp]; simp only [State.setPpu_mapper]; rw [hf]; exact h

end Sys2Proof.Machine
end

