-- ==== Sys2Proof/Laws/Inv.lean ====
section
/-! SUPPORT. The two invariants of Safety.lean, kept by the shared operations: the bus, the stack, the addressing modes,
taking an interrupt, a PPU tick. -/

namespace Sys2Proof.Machine

open Sys2Proof.Safety

/-- Both invariants as one, split into the parts that the operations keep. -/
structure Inv (s : State) : Prop where
  mem : s.memWf = true
  six : paletteSix s.ppu.palette = true
  sleep : s.cpu.sleep ≤ 6
  ppu : PpuOk s.ppu
  regs : regsOk s.launch.cart.mapperNumber s.mapper.regs = true

theorem inv_iff (s : State) : Inv s ↔ memoriesOk s = true ∧ countersOk s = true := by
  simp only [memoriesOk, countersOk, Bool.and_eq_true, decide_eq_true_eq]
  constructor
  · intro h
    have hr := h.regs
    simp only [regsOk, Bool.and_eq_true] at hr
    exact ⟨⟨⟨⟨h.mem, h.six⟩, h.ppu.back⟩, h.ppu.published⟩,
      ⟨⟨⟨⟨⟨h.sleep, h.ppu.scanline⟩, h.ppu.dot⟩, h.ppu.secondary⟩, h.ppu.sprites⟩, hr.1⟩, hr.2⟩
  · rintro ⟨⟨⟨⟨a, b⟩, c⟩, d⟩, ⟨⟨⟨⟨⟨e, f⟩, g⟩, i⟩, j⟩, k⟩, l⟩
    exact ⟨a, b, e, ⟨c, d, f, g, i, j⟩, by simp only [regsOk, Bool.and_eq_true]; exact ⟨k, l⟩⟩

/-- What keeps the invariant: the memories, the launch and the ranges as they were. -/
theorem Inv.congr {s t : State} (h : Inv s) (hram : t.ram = s.ram) (hm : t.mapper = s.mapper) (hl : t.launch = s.launch)
    (hv : t.ppu.vram = s.ppu.vram) (hp : t.ppu.palette = s.ppu.palette) (ho : t.ppu.oam = s.ppu.oam)
    (hs : t.cpu.sleep ≤ 6) (hk : PpuOk t.ppu) : Inv t := by
  refine ⟨?_, by rw [hp]; exact h.six, hs, hk, by rw [hm, hl]; exact h.regs⟩
  have := h.mem
  simp only [State.memWf] at this ⊢
  rw [hram, hm, hl, hv, hp, ho]
  exact this

theorem inv_busRead {s : State} (a : Word) (h : Inv s) : Inv (busRead a s).2 := by
  obtain ⟨_, _, _, _, _, _, e⟩ := busRead_cases s a
  rw [e]
  exact h.congr rfl rfl rfl rfl rfl rfl h.sleep ⟨h.ppu.1, h.ppu.2, h.ppu.3, h.ppu.4, h.ppu.5, h.ppu.6⟩

theorem paletteSix_memWrite (m : Mem) (i : Nat) (b : Byte) (h : paletteSix m = true) (hb : b.toNat < 64) :
    paletteSix (memWrite .palette m i b) = true := by
  unfold memWrite
  rw [if_neg (by simp [unlisted])]
  exact all_memInsert _ _ _ _ h (by simpa using hb)

theorem and_3F_lt (v : Byte) : (v &&& 0x3F).toNat < 64 := by
  have : (v &&& 0x3F).toNat ≤ 63 := by
    rw [BitVec.toNat_and]
    exact Nat.and_le_right
  omega

theorem inv_busWrite {s : State} (a : Word) (v : Byte) (h : Inv s) : Inv (busWrite a v s) := by
  have hregs : regsOk s.launch.cart.mapperNumber (busWrite a v s).mapper.regs = true := by
    by_cases hlt : 0x8000 ≤ a.toNat
    · have hw : busWrite a v s = mapperWrite a v (s.setBusLatch v) := if_pos hlt
      rw [hw]
      exact regsOk_mapperWrite a v h.regs
    · rw [(busWrite_irqPending s a v (by omega)).2]
      exact h.regs
  obtain ⟨base, ctrl, mask, pv, t, x, w, oa, io, n, q, regs, hb, -, -, e⟩ := busWrite_cases s a v
  rw [e] at hregs ⊢
  rcases hb with rfl | ⟨r, i, b, hc, hp, hq, h6, rfl⟩
  · exact ⟨h.mem, h.six, h.sleep, ⟨h.ppu.1, h.ppu.2, h.ppu.3, h.ppu.4, h.ppu.5, h.ppu.6⟩, hregs⟩
  · have hm := memWf_setCell s r i b h.mem
    refine ⟨?_, ?_, ?_, ?_, ?_⟩
    · exact hm
    · cases r <;> try exact h.six
      exact paletteSix_memWrite _ _ _ h.six (by rw [h6 rfl]; exact and_3F_lt v)
    · show (s.setCell r i b).cpu.sleep ≤ 6
      rw [State.setCell_cpu]
      exact h.sleep
    · have e2 := State.setCell_ppu_eq s r i b
      refine ⟨?_, ?_, ?_, ?_, ?_, ?_⟩ <;> simp only [Ppu.withPorts] <;> rw [e2]
      exacts [h.ppu.1, h.ppu.2, h.ppu.3, h.ppu.4, h.ppu.5, h.ppu.6]
    · show regsOk (s.setCell r i b).launch.cart.mapperNumber regs = true
      rw [State.setCell_launch _ _ _ _ hp hq]
      exact hregs

/-- An update of registers and flags that leaves sleep in range. -/
theorem Inv.withCpu {s : State} (h : Inv s) (c : Cpu) (hs : c.sleep ≤ 6) : Inv { s with cpu := c } :=
  ⟨h.mem, h.six, hs, h.ppu, h.regs⟩

theorem Inv.withLatch {s : State} (h : Inv s) (b : Byte) : Inv (s.setBusLatch b) := ⟨h.mem, h.six, h.sleep, h.ppu, h.regs⟩

theorem inv_push {s : State} (v : Byte) (h : Inv s) : Inv (push v s) :=
  (inv_busWrite (stackAddr s.cpu.s) v h).withCpu _ (by rw [busWrite_cpu_sleep]; exact h.sleep)

theorem inv_pull {s : State} (h : Inv s) : Inv (pull s).2 :=
  inv_busRead _ (h.withCpu _ h.sleep)

theorem inv_locate {s : State} (a : Addr) (h : Inv s) : Inv (locate a s).st := by
  rcases locate_st s a with e | ⟨p, q, e⟩
  · rw [e]; exact h
  · rw [e]; exact inv_busRead _ (inv_busRead _ h)

theorem inv_readSource {s : State} (src : Source) (h : Inv s) : Inv (readSource src s).st := by
  rcases readSource_st s src with e | ⟨a, _, e⟩
  · rw [e]; exact h
  · rw [e]; exact inv_busRead _ (inv_locate a h)

theorem inv_pushReturn {s : State} (k : IntKind) (h : Inv s) : Inv (pushReturn k s) := by
  cases k
  · exact inv_push _ (inv_push _ (inv_push _ h))
  · exact inv_push _ (inv_push _ (inv_push _ h))
  · exact inv_push _ (inv_push _ (inv_push _ h))
  · exact h

theorem inv_takeInterrupt {s t : State} (k : IntKind) (h : Inv s) (ht : takeInterrupt k s = .next t) : Inv t := by
  rw [takeInterrupt_eq] at ht
  dsimp only at ht
  split at ht
  · cases ht
  · cases ht
    exact (((inv_pushReturn k h).withCpu _ (inv_pushReturn k h).sleep).withLatch _).withCpu _ (le_refl 6)

theorem inv_returnFromInterrupt {s : State} (h : Inv s) : Inv (returnFromInterrupt s) := by
  rw [returnFromInterrupt_eq]
  exact ⟨h.mem, h.six, h.sleep, h.ppu, h.regs⟩

theorem inv_ppuTick {s : State} (h : Inv s) : Inv (ppuTick s) := by
  have hr := regsOk_ppuTick h.regs
  have hk := ppuOk_ppuTick h.ppu
  have e := ticked_ppuTick s
  refine ⟨?_, by rw [e.palette]; exact h.six, ?_, hk, ?_⟩
  · have := h.mem
    simp only [State.memWf] at this ⊢
    rw [e.vram, e.palette, e.oam]
    rw [e.eq]
    exact this
  · rw [e.eq]; exact h.sleep
  · have hl : (ppuTick s).launch = s.launch := by rw [e.eq]
    rw [hl]; exact hr

end Sys2Proof.Machine
end

