-- ==== Sys2Proof/Laws/PerInstr.lean ====
section
/-! SUPPORT. Statements made per instruction: `OperandFits`, that an instruction's operand field fits the bytes its mode gives
it (30_encoding.md R130, R131). -/

namespace Sys2Proof.Laws.OperandFits

open Sys2Proof

/-- Every term of the syntax is well formed. -/
def Statement (i : Instr) : Prop := i.WellFormed

theorem ldaImm (b : Byte) : Statement (.ldaImm b) := operandFits_byte b
theorem ldaZp (b : Byte) : Statement (.ldaZp b) := operandFits_byte b
theorem ldaZpx (b : Byte) : Statement (.ldaZpx b) := operandFits_byte b
theorem ldaAbs (w : Word) : Statement (.ldaAbs w) := operandFits_word w
theorem ldaAbsx (w : Word) : Statement (.ldaAbsx w) := operandFits_word w
theorem ldaAbsy (w : Word) : Statement (.ldaAbsy w) := operandFits_word w
theorem ldaIndx (b : Byte) : Statement (.ldaIndx b) := operandFits_byte b
theorem ldaIndy (b : Byte) : Statement (.ldaIndy b) := operandFits_byte b
theorem ldxImm (b : Byte) : Statement (.ldxImm b) := operandFits_byte b
theorem ldxZp (b : Byte) : Statement (.ldxZp b) := operandFits_byte b
theorem ldxZpy (b : Byte) : Statement (.ldxZpy b) := operandFits_byte b
theorem ldxAbs (w : Word) : Statement (.ldxAbs w) := operandFits_word w
theorem ldxAbsy (w : Word) : Statement (.ldxAbsy w) := operandFits_word w
theorem ldyImm (b : Byte) : Statement (.ldyImm b) := operandFits_byte b
theorem ldyZp (b : Byte) : Statement (.ldyZp b) := operandFits_byte b
theorem ldyZpx (b : Byte) : Statement (.ldyZpx b) := operandFits_byte b
theorem ldyAbs (w : Word) : Statement (.ldyAbs w) := operandFits_word w
theorem ldyAbsx (w : Word) : Statement (.ldyAbsx w) := operandFits_word w
theorem staZp (b : Byte) : Statement (.staZp b) := operandFits_byte b
theorem staZpx (b : Byte) : Statement (.staZpx b) := operandFits_byte b
theorem staAbs (w : Word) : Statement (.staAbs w) := operandFits_word w
theorem staAbsx (w : Word) : Statement (.staAbsx w) := operandFits_word w
theorem staAbsy (w : Word) : Statement (.staAbsy w) := operandFits_word w
theorem staIndx (b : Byte) : Statement (.staIndx b) := operandFits_byte b
theorem staIndy (b : Byte) : Statement (.staIndy b) := operandFits_byte b
theorem stxZp (b : Byte) : Statement (.stxZp b) := operandFits_byte b
theorem stxZpy (b : Byte) : Statement (.stxZpy b) := operandFits_byte b
theorem stxAbs (w : Word) : Statement (.stxAbs w) := operandFits_word w
theorem styZp (b : Byte) : Statement (.styZp b) := operandFits_byte b
theorem styZpx (b : Byte) : Statement (.styZpx b) := operandFits_byte b
theorem styAbs (w : Word) : Statement (.styAbs w) := operandFits_word w
theorem tax : Statement .tax := rfl
theorem tay : Statement .tay := rfl
theorem txa : Statement .txa := rfl
theorem tya : Statement .tya := rfl
theorem tsx : Statement .tsx := rfl
theorem txs : Statement .txs := rfl
theorem adcImm (b : Byte) : Statement (.adcImm b) := operandFits_byte b
theorem adcZp (b : Byte) : Statement (.adcZp b) := operandFits_byte b
theorem adcZpx (b : Byte) : Statement (.adcZpx b) := operandFits_byte b
theorem adcAbs (w : Word) : Statement (.adcAbs w) := operandFits_word w
theorem adcAbsx (w : Word) : Statement (.adcAbsx w) := operandFits_word w
theorem adcAbsy (w : Word) : Statement (.adcAbsy w) := operandFits_word w
theorem adcIndx (b : Byte) : Statement (.adcIndx b) := operandFits_byte b
theorem adcIndy (b : Byte) : Statement (.adcIndy b) := operandFits_byte b
theorem sbcImm (b : Byte) : Statement (.sbcImm b) := operandFits_byte b
theorem sbcZp (b : Byte) : Statement (.sbcZp b) := operandFits_byte b
theorem sbcZpx (b : Byte) : Statement (.sbcZpx b) := operandFits_byte b
theorem sbcAbs (w : Word) : Statement (.sbcAbs w) := operandFits_word w
theorem sbcAbsx (w : Word) : Statement (.sbcAbsx w) := operandFits_word w
theorem sbcAbsy (w : Word) : Statement (.sbcAbsy w) := operandFits_word w
theorem sbcIndx (b : Byte) : Statement (.sbcIndx b) := operandFits_byte b
theorem sbcIndy (b : Byte) : Statement (.sbcIndy b) := operandFits_byte b
theorem andImm (b : Byte) : Statement (.andImm b) := operandFits_byte b
theorem andZp (b : Byte) : Statement (.andZp b) := operandFits_byte b
theorem andZpx (b : Byte) : Statement (.andZpx b) := operandFits_byte b
theorem andAbs (w : Word) : Statement (.andAbs w) := operandFits_word w
theorem andAbsx (w : Word) : Statement (.andAbsx w) := operandFits_word w
theorem andAbsy (w : Word) : Statement (.andAbsy w) := operandFits_word w
theorem andIndx (b : Byte) : Statement (.andIndx b) := operandFits_byte b
theorem andIndy (b : Byte) : Statement (.andIndy b) := operandFits_byte b
theorem oraImm (b : Byte) : Statement (.oraImm b) := operandFits_byte b
theorem oraZp (b : Byte) : Statement (.oraZp b) := operandFits_byte b
theorem oraZpx (b : Byte) : Statement (.oraZpx b) := operandFits_byte b
theorem oraAbs (w : Word) : Statement (.oraAbs w) := operandFits_word w
theorem oraAbsx (w : Word) : Statement (.oraAbsx w) := operandFits_word w
theorem oraAbsy (w : Word) : Statement (.oraAbsy w) := operandFits_word w
theorem oraIndx (b : Byte) : Statement (.oraIndx b) := operandFits_byte b
theorem oraIndy (b : Byte) : Statement (.oraIndy b) := operandFits_byte b
theorem eorImm (b : Byte) : Statement (.eorImm b) := operandFits_byte b
theorem eorZp (b : Byte) : Statement (.eorZp b) := operandFits_byte b
theorem eorZpx (b : Byte) : Statement (.eorZpx b) := operandFits_byte b
theorem eorAbs (w : Word) : Statement (.eorAbs w) := operandFits_word w
theorem eorAbsx (w : Word) : Statement (.eorAbsx w) := operandFits_word w
theorem eorAbsy (w : Word) : Statement (.eorAbsy w) := operandFits_word w
theorem eorIndx (b : Byte) : Statement (.eorIndx b) := operandFits_byte b
theorem eorIndy (b : Byte) : Statement (.eorIndy b) := operandFits_byte b
theorem cmpImm (b : Byte) : Statement (.cmpImm b) := operandFits_byte b
theorem cmpZp (b : Byte) : Statement (.cmpZp b) := operandFits_byte b
theorem cmpZpx (b : Byte) : Statement (.cmpZpx b) := operandFits_byte b
theorem cmpAbs (w : Word) : Statement (.cmpAbs w) := operandFits_word w
theorem cmpAbsx (w : Word) : Statement (.cmpAbsx w) := operandFits_word w
theorem cmpAbsy (w : Word) : Statement (.cmpAbsy w) := operandFits_word w
theorem cmpIndx (b : Byte) : Statement (.cmpIndx b) := operandFits_byte b
theorem cmpIndy (b : Byte) : Statement (.cmpIndy b) := operandFits_byte b
theorem cpxImm (b : Byte) : Statement (.cpxImm b) := operandFits_byte b
theorem cpxZp (b : Byte) : Statement (.cpxZp b) := operandFits_byte b
theorem cpxAbs (w : Word) : Statement (.cpxAbs w) := operandFits_word w
theorem cpyImm (b : Byte) : Statement (.cpyImm b) := operandFits_byte b
theorem cpyZp (b : Byte) : Statement (.cpyZp b) := operandFits_byte b
theorem cpyAbs (w : Word) : Statement (.cpyAbs w) := operandFits_word w
theorem bitZp (b : Byte) : Statement (.bitZp b) := operandFits_byte b
theorem bitAbs (w : Word) : Statement (.bitAbs w) := operandFits_word w
theorem incZp (b : Byte) : Statement (.incZp b) := operandFits_byte b
theorem incZpx (b : Byte) : Statement (.incZpx b) := operandFits_byte b
theorem incAbs (w : Word) : Statement (.incAbs w) := operandFits_word w
theorem incAbsx (w : Word) : Statement (.incAbsx w) := operandFits_word w
theorem decZp (b : Byte) : Statement (.decZp b) := operandFits_byte b
theorem decZpx (b : Byte) : Statement (.decZpx b) := operandFits_byte b
theorem decAbs (w : Word) : Statement (.decAbs w) := operandFits_word w
theorem decAbsx (w : Word) : Statement (.decAbsx w) := operandFits_word w
theorem inx : Statement .inx := rfl
theorem iny : Statement .iny := rfl
theorem dex : Statement .dex := rfl
theorem dey : Statement .dey := rfl
theorem aslAcc : Statement .aslAcc := rfl
theorem aslZp (b : Byte) : Statement (.aslZp b) := operandFits_byte b
theorem aslZpx (b : Byte) : Statement (.aslZpx b) := operandFits_byte b
theorem aslAbs (w : Word) : Statement (.aslAbs w) := operandFits_word w
theorem aslAbsx (w : Word) : Statement (.aslAbsx w) := operandFits_word w
theorem lsrAcc : Statement .lsrAcc := rfl
theorem lsrZp (b : Byte) : Statement (.lsrZp b) := operandFits_byte b
theorem lsrZpx (b : Byte) : Statement (.lsrZpx b) := operandFits_byte b
theorem lsrAbs (w : Word) : Statement (.lsrAbs w) := operandFits_word w
theorem lsrAbsx (w : Word) : Statement (.lsrAbsx w) := operandFits_word w
theorem rolAcc : Statement .rolAcc := rfl
theorem rolZp (b : Byte) : Statement (.rolZp b) := operandFits_byte b
theorem rolZpx (b : Byte) : Statement (.rolZpx b) := operandFits_byte b
theorem rolAbs (w : Word) : Statement (.rolAbs w) := operandFits_word w
theorem rolAbsx (w : Word) : Statement (.rolAbsx w) := operandFits_word w
theorem rorAcc : Statement .rorAcc := rfl
theorem rorZp (b : Byte) : Statement (.rorZp b) := operandFits_byte b
theorem rorZpx (b : Byte) : Statement (.rorZpx b) := operandFits_byte b
theorem rorAbs (w : Word) : Statement (.rorAbs w) := operandFits_word w
theorem rorAbsx (w : Word) : Statement (.rorAbsx w) := operandFits_word w
theorem pha : Statement .pha := rfl
theorem php : Statement .php := rfl
theorem pla : Statement .pla := rfl
theorem plp : Statement .plp := rfl
theorem jmpAbs (w : Word) : Statement (.jmpAbs w) := operandFits_word w
theorem jmpInd (w : Word) : Statement (.jmpInd w) := operandFits_word w
theorem jsr (w : Word) : Statement (.jsr w) := operandFits_word w
theorem rts : Statement .rts := rfl
theorem bcc (d : Byte) : Statement (.bcc d) := operandFits_byte d
theorem bcs (d : Byte) : Statement (.bcs d) := operandFits_byte d
theorem beq (d : Byte) : Statement (.beq d) := operandFits_byte d
theorem bne (d : Byte) : Statement (.bne d) := operandFits_byte d
theorem bmi (d : Byte) : Statement (.bmi d) := operandFits_byte d
theorem bpl (d : Byte) : Statement (.bpl d) := operandFits_byte d
theorem bvc (d : Byte) : Statement (.bvc d) := operandFits_byte d
theorem bvs (d : Byte) : Statement (.bvs d) := operandFits_byte d
theorem clc : Statement .clc := rfl
theorem sec : Statement .sec := rfl
theorem cli : Statement .cli := rfl
theorem sei : Statement .sei := rfl
theorem cld : Statement .cld := rfl
theorem sed : Statement .sed := rfl
theorem clv : Statement .clv := rfl
theorem nop : Statement .nop := rfl
theorem brk : Statement .brk := rfl
theorem rti : Statement .rti := rfl

end Sys2Proof.Laws.OperandFits
end

