-- ==== Sys2Proof/Tests/Slice0.lean ====
section
/-! SUPPORT. Tests: ill-formed terms that the checks refuse, every constructor's word, at most two steps per mnemonic with
the values of spec/95_test_vectors.md or of the instruction's rule, and for every obligation with hypotheses a witness
that meets them. -/

namespace Sys2Proof.Tests

open Sys2Proof Sys2Proof.Machine Sys2Proof.Claims Sys2Proof.Safety

/-- An awake processor at $8000 with every flag clear, S = $FD. -/
def awake : Cpu := { Cpu.afterReset 0x8000 with sleep := 0, i := false }

/-- The standard machine with this RAM and processor. -/
def machine (ram : Mem) (c : Cpu) : State := { State.reset with ram := ram, cpu := c }

/-- The standard machine with these PRG ROM bytes. -/
def withRom (rom : Mem) (c : Cpu) : State :=
  { State.reset with cpu := c, launch := { Launch.standard with cart := { Cartridge.standard with prgRom := rom } } }

/-- A machine with this cartridge and mapper state. -/
def withMapper (pages : Nat) (regs : MapperRegs) (s : State) : State :=
  { s with
    mapper := { s.mapper with regs := regs }
    launch := { s.launch with cart := { s.launch.cart with prgPages := pages } } }

/-- A field of the next state, `none` where there is none. -/
def after {α : Type} (o : Outcome) (f : State → α) : Option α :=
  match o with
  | .next s => some (f s)
  | .fault _ => none
  | .refused _ => none

/-- The fault, `none` where there is none. -/
def faultOf (o : Outcome) : Option Fault :=
  match o with
  | .next _ => none
  | .fault f => some f
  | .refused _ => none

/-- What the decoder reads from these bytes, all of them. -/
def reads (bs : List Byte) : Option Instr :=
  match decode bs with
  | .ok (i, []) => some i
  | _ => none

/-- The error's name. -/
def decodeErrorOf (bs : List Byte) : Option DecodeError :=
  match decode bs with
  | .ok _ => none
  | .error e => some e

/-- A cartridge image: header bytes 4 to 7 and `n` bytes of body. -/
def image (prg chr b6 b7 : Byte) (n : Nat) : List Byte :=
  [0x4E, 0x45, 0x53, 0x1A, prg, chr, b6, b7, 0, 0, 0, 0, 0, 0, 0, 0] ++ List.replicate n 0

/-- The load's failure. -/
def loadError (img : List Byte) : Option Fault :=
  match loadImage img with
  | .ok _ => none
  | .error f => some f

/-! ## Ill-formed terms -/

theorem test_wf_byte_field_too_wide : operandFits 2 0x100 = false := by decide
theorem test_wf_word_field_too_wide : operandFits 3 0x10000 = false := by decide
theorem test_wf_field_of_one_byte_form : operandFits 1 1 = false := by decide
theorem test_wf_image_magic : imageMagicOk [0x4E, 0x45, 0x53, 0x1B] = false := by decide
theorem test_wf_image_format : imageFormatOk (image 1 1 0 0x08 0) = false := by decide
theorem test_wf_image_no_page : imagePagesOk (image 0 1 0 0 0) = false := by decide
theorem test_wf_image_short : imageSizeOk (image 1 0 0 0 16383) = false := by decide +kernel
theorem test_wf_image_trainer_short : imageSizeOk (image 1 0 0x04 0 16384) = false := by decide +kernel
theorem test_wf_mapper_number : mapperSupported 2 = false := by decide
theorem test_load_bad_magic : loadError ([0x00] ++ image 1 1 0 0 0) = some .loadMalformedRom := by decide
theorem test_load_unsupported_mapper : loadError (image 1 0 0x20 0 16384) = some (.loadUnsupportedMapper 2) := by
  decide +kernel
theorem test_decode_unregistered : decodeErrorOf [0x02, 0x00] = some (.unregistered 0x02) := by decide
theorem test_decode_truncated_word : decodeErrorOf [0xAD, 0x34] = some .truncated := by decide
theorem test_decode_truncated_byte : decodeErrorOf [0xA9] = some .truncated := by decide
theorem test_decode_empty : decodeErrorOf [] = some .truncated := by decide

/-! ## Every constructor's word: the opcode bits of its row of the table, operand bytes $12 or $34 $12 -/

theorem test_decode_loads : [[0b10101001, 0x12],
    [0b10100101, 0x12],
    [0b10110101, 0x12],
    [0b10101101, 0x34, 0x12],
    [0b10111101, 0x34, 0x12],
    [0b10111001, 0x34, 0x12],
    [0b10100001, 0x12],
    [0b10110001, 0x12],
    [0b10100010, 0x12],
    [0b10100110, 0x12],
    [0b10110110, 0x12],
    [0b10101110, 0x34, 0x12],
    [0b10111110, 0x34, 0x12],
    [0b10100000, 0x12],
    [0b10100100, 0x12],
    [0b10110100, 0x12],
    [0b10101100, 0x34, 0x12],
    [0b10111100, 0x34, 0x12]].map reads =
    [some (.ldaImm 0x12), some (.ldaZp 0x12), some (.ldaZpx 0x12), some (.ldaAbs 0x1234),
     some (.ldaAbsx 0x1234), some (.ldaAbsy 0x1234), some (.ldaIndx 0x12), some (.ldaIndy 0x12),
     some (.ldxImm 0x12), some (.ldxZp 0x12), some (.ldxZpy 0x12), some (.ldxAbs 0x1234),
     some (.ldxAbsy 0x1234), some (.ldyImm 0x12), some (.ldyZp 0x12), some (.ldyZpx 0x12),
     some (.ldyAbs 0x1234), some (.ldyAbsx 0x1234)] := by decide

theorem test_decode_stores : [[0b10000101, 0x12],
    [0b10010101, 0x12],
    [0b10001101, 0x34, 0x12],
    [0b10011101, 0x34, 0x12],
    [0b10011001, 0x34, 0x12],
    [0b10000001, 0x12],
    [0b10010001, 0x12],
    [0b10000110, 0x12],
    [0b10010110, 0x12],
    [0b10001110, 0x34, 0x12],
    [0b10000100, 0x12],
    [0b10010100, 0x12],
    [0b10001100, 0x34, 0x12]].map reads =
    [some (.staZp 0x12), some (.staZpx 0x12), some (.staAbs 0x1234), some (.staAbsx 0x1234),
     some (.staAbsy 0x1234), some (.staIndx 0x12), some (.staIndy 0x12), some (.stxZp 0x12),
     some (.stxZpy 0x12), some (.stxAbs 0x1234), some (.styZp 0x12), some (.styZpx 0x12),
     some (.styAbs 0x1234)] := by decide

theorem test_decode_transfers : [[0b10101010],
    [0b10101000],
    [0b10001010],
    [0b10011000],
    [0b10111010],
    [0b10011010]].map reads =
    [some (.tax), some (.tay), some (.txa), some (.tya), some (.tsx), some (.txs)] := by decide

theorem test_decode_adc_sbc : [[0b01101001, 0x12],
    [0b01100101, 0x12],
    [0b01110101, 0x12],
    [0b01101101, 0x34, 0x12],
    [0b01111101, 0x34, 0x12],
    [0b01111001, 0x34, 0x12],
    [0b01100001, 0x12],
    [0b01110001, 0x12],
    [0b11101001, 0x12],
    [0b11100101, 0x12],
    [0b11110101, 0x12],
    [0b11101101, 0x34, 0x12],
    [0b11111101, 0x34, 0x12],
    [0b11111001, 0x34, 0x12],
    [0b11100001, 0x12],
    [0b11110001, 0x12]].map reads =
    [some (.adcImm 0x12), some (.adcZp 0x12), some (.adcZpx 0x12), some (.adcAbs 0x1234),
     some (.adcAbsx 0x1234), some (.adcAbsy 0x1234), some (.adcIndx 0x12), some (.adcIndy 0x12),
     some (.sbcImm 0x12), some (.sbcZp 0x12), some (.sbcZpx 0x12), some (.sbcAbs 0x1234),
     some (.sbcAbsx 0x1234), some (.sbcAbsy 0x1234), some (.sbcIndx 0x12), some (.sbcIndy 0x12)] := by decide

theorem test_decode_logic : [[0b00101001, 0x12],
    [0b00100101, 0x12],
    [0b00110101, 0x12],
    [0b00101101, 0x34, 0x12],
    [0b00111101, 0x34, 0x12],
    [0b00111001, 0x34, 0x12],
    [0b00100001, 0x12],
    [0b00110001, 0x12],
    [0b00001001, 0x12],
    [0b00000101, 0x12],
    [0b00010101, 0x12],
    [0b00001101, 0x34, 0x12],
    [0b00011101, 0x34, 0x12],
    [0b00011001, 0x34, 0x12],
    [0b00000001, 0x12],
    [0b00010001, 0x12],
    [0b01001001, 0x12],
    [0b01000101, 0x12],
    [0b01010101, 0x12],
    [0b01001101, 0x34, 0x12],
    [0b01011101, 0x34, 0x12],
    [0b01011001, 0x34, 0x12],
    [0b01000001, 0x12],
    [0b01010001, 0x12]].map reads =
    [some (.andImm 0x12), some (.andZp 0x12), some (.andZpx 0x12), some (.andAbs 0x1234),
     some (.andAbsx 0x1234), some (.andAbsy 0x1234), some (.andIndx 0x12), some (.andIndy 0x12),
     some (.oraImm 0x12), some (.oraZp 0x12), some (.oraZpx 0x12), some (.oraAbs 0x1234),
     some (.oraAbsx 0x1234), some (.oraAbsy 0x1234), some (.oraIndx 0x12), some (.oraIndy 0x12),
     some (.eorImm 0x12), some (.eorZp 0x12), some (.eorZpx 0x12), some (.eorAbs 0x1234),
     some (.eorAbsx 0x1234), some (.eorAbsy 0x1234), some (.eorIndx 0x12), some (.eorIndy 0x12)] := by decide

theorem test_decode_compares : [[0b11001001, 0x12],
    [0b11000101, 0x12],
    [0b11010101, 0x12],
    [0b11001101, 0x34, 0x12],
    [0b11011101, 0x34, 0x12],
    [0b11011001, 0x34, 0x12],
    [0b11000001, 0x12],
    [0b11010001, 0x12],
    [0b11100000, 0x12],
    [0b11100100, 0x12],
    [0b11101100, 0x34, 0x12],
    [0b11000000, 0x12],
    [0b11000100, 0x12],
    [0b11001100, 0x34, 0x12],
    [0b00100100, 0x12],
    [0b00101100, 0x34, 0x12]].map reads =
    [some (.cmpImm 0x12), some (.cmpZp 0x12), some (.cmpZpx 0x12), some (.cmpAbs 0x1234),
     some (.cmpAbsx 0x1234), some (.cmpAbsy 0x1234), some (.cmpIndx 0x12), some (.cmpIndy 0x12),
     some (.cpxImm 0x12), some (.cpxZp 0x12), some (.cpxAbs 0x1234), some (.cpyImm 0x12), some (.cpyZp 0x12),
     some (.cpyAbs 0x1234), some (.bitZp 0x12), some (.bitAbs 0x1234)] := by decide

theorem test_decode_inc_dec : [[0b11100110, 0x12],
    [0b11110110, 0x12],
    [0b11101110, 0x34, 0x12],
    [0b11111110, 0x34, 0x12],
    [0b11000110, 0x12],
    [0b11010110, 0x12],
    [0b11001110, 0x34, 0x12],
    [0b11011110, 0x34, 0x12],
    [0b11101000],
    [0b11001000],
    [0b11001010],
    [0b10001000]].map reads =
    [some (.incZp 0x12), some (.incZpx 0x12), some (.incAbs 0x1234), some (.incAbsx 0x1234),
     some (.decZp 0x12), some (.decZpx 0x12), some (.decAbs 0x1234), some (.decAbsx 0x1234), some (.inx),
     some (.iny), some (.dex), some (.dey)] := by decide

theorem test_decode_shifts : [[0b00001010],
    [0b00000110, 0x12],
    [0b00010110, 0x12],
    [0b00001110, 0x34, 0x12],
    [0b00011110, 0x34, 0x12],
    [0b01001010],
    [0b01000110, 0x12],
    [0b01010110, 0x12],
    [0b01001110, 0x34, 0x12],
    [0b01011110, 0x34, 0x12],
    [0b00101010],
    [0b00100110, 0x12],
    [0b00110110, 0x12],
    [0b00101110, 0x34, 0x12],
    [0b00111110, 0x34, 0x12],
    [0b01101010],
    [0b01100110, 0x12],
    [0b01110110, 0x12],
    [0b01101110, 0x34, 0x12],
    [0b01111110, 0x34, 0x12]].map reads =
    [some (.aslAcc), some (.aslZp 0x12), some (.aslZpx 0x12), some (.aslAbs 0x1234), some (.aslAbsx 0x1234),
     some (.lsrAcc), some (.lsrZp 0x12), some (.lsrZpx 0x12), some (.lsrAbs 0x1234), some (.lsrAbsx 0x1234),
     some (.rolAcc), some (.rolZp 0x12), some (.rolZpx 0x12), some (.rolAbs 0x1234), some (.rolAbsx 0x1234),
     some (.rorAcc), some (.rorZp 0x12), some (.rorZpx 0x12), some (.rorAbs 0x1234),
     some (.rorAbsx 0x1234)] := by decide

theorem test_decode_stack : [[0b01001000],
    [0b00001000],
    [0b01101000],
    [0b00101000]].map reads =
    [some (.pha), some (.php), some (.pla), some (.plp)] := by decide

theorem test_decode_control : [[0b01001100, 0x34, 0x12],
    [0b01101100, 0x34, 0x12],
    [0b00100000, 0x34, 0x12],
    [0b01100000],
    [0b10010000, 0x12],
    [0b10110000, 0x12],
    [0b11110000, 0x12],
    [0b11010000, 0x12],
    [0b00110000, 0x12],
    [0b00010000, 0x12],
    [0b01010000, 0x12],
    [0b01110000, 0x12]].map reads =
    [some (.jmpAbs 0x1234), some (.jmpInd 0x1234), some (.jsr 0x1234), some (.rts), some (.bcc 0x12),
     some (.bcs 0x12), some (.beq 0x12), some (.bne 0x12), some (.bmi 0x12), some (.bpl 0x12),
     some (.bvc 0x12), some (.bvs 0x12)] := by decide

theorem test_decode_system : [[0b00011000],
    [0b00111000],
    [0b01011000],
    [0b01111000],
    [0b11011000],
    [0b11111000],
    [0b10111000],
    [0b11101010],
    [0b00000000],
    [0b01000000]].map reads =
    [some (.clc), some (.sec), some (.cli), some (.sei), some (.cld), some (.sed), some (.clv), some (.nop),
     some (.brk), some (.rti)] := by decide

/-! ## One instruction each: 95_test_vectors.md L1, L2, or the example of the instruction's rule -/

/-- R200's example: LDA #$80 (L2.1 #2). -/
theorem test_lda_imm : after (exec (.ldaImm 0x80) (machine [] awake))
    (fun s => (s.cpu.a, s.cpu.z, s.cpu.n, s.cpu.sleep)) = some (0x80, false, true, 1) := by decide
/-- L2.7 #10: LDA ($FE,X), the pointer wraps in page zero. -/
theorem test_lda_indx : after (exec (.ldaIndx 0xFE) (machine [(0, 3), (0xFF, 0), (0x300, 0x42)] { awake with x := 1 }))
    (fun s => (s.cpu.a, s.cpu.sleep)) = some (0x42, 5) := by decide
/-- L2.1 #3: LDX $FF,Y wraps to $0001. -/
theorem test_ldx_zpy : after (exec (.ldxZpy 0xFF) (machine [(1, 0)] { awake with y := 2, x := 9 }))
    (fun s => (s.cpu.x, s.cpu.z, s.cpu.sleep)) = some (0, true, 3) := by decide
/-- L2.7 #13: LDX $1201,Y crosses a page. -/
theorem test_ldx_absy : after (exec (.ldxAbsy 0x1201) (machine [(0x300, 5)] { awake with y := 0xFF }))
    (fun s => (s.cpu.x, s.cpu.sleep)) = some (5, 4) := by decide
/-- L2.1 #4: LDY $12FF,X crosses, $1300 mirrors $0300. -/
theorem test_ldy_absx : after (exec (.ldyAbsx 0x12FF) (machine [(0x300, 0x77)] { awake with x := 1 }))
    (fun s => (s.cpu.y, s.cpu.n, s.cpu.z, s.cpu.sleep)) = some (0x77, false, false, 4) := by decide
/-- L2.1 #6: STA $12FF,X, fixed cost. -/
theorem test_sta_absx : after (exec (.staAbsx 0x12FF) (machine [] { awake with a := 0x3C, x := 1 }))
    (fun s => (s.cell .ram 0x300, s.cpu.sleep)) = some (0x3C, 4) := by decide
/-- L2.1 #7: STA $8000 on NROM is dropped, the latch holds the byte. -/
theorem test_sta_rom : after (exec (.staAbs 0x8000) (machine [] { awake with a := 0x11 }))
    (fun s => (s.cell .prgRom 0, s.busLatch, s.ram)) = some (0, 0x11, []) := by decide
/-- L2.1 #8: STX $FF,Y. -/
theorem test_stx_zpy : after (exec (.stxZpy 0xFF) (machine [] { awake with x := 0x11, y := 1 }))
    (fun s => s.cell .ram 0) = some 0x11 := by decide
/-- R205's example: STY $10. -/
theorem test_sty_zp : after (exec (.styZp 0x10) (machine [] { awake with y := 5 }))
    (fun s => (s.cell .ram 0x10, s.cpu.sleep)) = some (5, 2) := by decide
/-- L2.1 #9: TAX. -/
theorem test_tax : after (exec .tax (machine [] { awake with a := 0xFF })) (fun s => (s.cpu.x, s.cpu.n, s.cpu.z)) =
    some (0xFF, true, false) := by decide
/-- R207's example: TAY. -/
theorem test_tay : after (exec .tay (machine [] { awake with y := 7 })) (fun s => (s.cpu.y, s.cpu.n, s.cpu.z)) =
    some (0, false, true) := by decide
/-- R208's example: TXA. -/
theorem test_txa : after (exec .txa (machine [] { awake with x := 0x80 })) (fun s => (s.cpu.a, s.cpu.n)) =
    some (0x80, true) := by decide
/-- L2.1 #12: TYA. -/
theorem test_tya : after (exec .tya (machine [] { awake with a := 3 })) (fun s => (s.cpu.a, s.cpu.z)) =
    some (0, true) := by decide
/-- L2.1 #10: TSX. -/
theorem test_tsx : after (exec .tsx (machine [] awake)) (fun s => (s.cpu.x, s.cpu.n)) = some (0xFD, true) := by decide
/-- L2.1 #11: TXS writes no flag. -/
theorem test_txs : after (exec .txs (machine [] { awake with n := true })) (fun s => (s.cpu.s, s.cpu.n, s.cpu.z)) =
    some (0, true, false) := by decide
/-- L1.2: ADC $FF + $01. -/
theorem test_adc_carry : after (exec (.adcImm 1) (machine [] { awake with a := 0xFF }))
    (fun s => (s.cpu.a, s.cpu.c, s.cpu.z, s.cpu.v, s.cpu.n)) = some (0, true, true, false, false) := by decide
/-- L2.2 #6 and #2: ADC ignores D; $80 + $80 overflows. -/
theorem test_adc_binary : after (exec (.adcImm 1) (machine [] { awake with a := 0x0F, d := true }))
    (fun s => s.cpu.a) = some 0x10 ∧
    after (exec (.adcImm 0x80) (machine [] { awake with a := 0x80 })) (fun s => (s.cpu.a, s.cpu.v, s.cpu.c)) =
    some (0, true, true) := by decide
/-- L1.3: SBC $00 - $01. -/
theorem test_sbc_borrow : after (exec (.sbcImm 1) (machine [] { awake with c := true }))
    (fun s => (s.cpu.a, s.cpu.c, s.cpu.n, s.cpu.z, s.cpu.v)) = some (0xFF, false, true, false, false) := by decide
/-- L2.2 #11: SBC $50 - $B0. -/
theorem test_sbc_overflow : after (exec (.sbcImm 0xB0) (machine [] { awake with a := 0x50, c := true }))
    (fun s => (s.cpu.a, s.cpu.n, s.cpu.v, s.cpu.z, s.cpu.c)) = some (0xA0, true, true, false, false) := by decide
/-- L2.2 #16: AND. -/
theorem test_and : after (exec (.andImm 0x0F) (machine [] { awake with a := 0xF0 })) (fun s => (s.cpu.a, s.cpu.z)) =
    some (0, true) := by decide
/-- L2.2 #17: ORA. -/
theorem test_ora : after (exec (.oraImm 0x80) (machine [] { awake with a := 1 })) (fun s => (s.cpu.a, s.cpu.n)) =
    some (0x81, true) := by decide
/-- L2.2 #18: EOR. -/
theorem test_eor : after (exec (.eorImm 0x0F) (machine [] { awake with a := 0xFF })) (fun s => (s.cpu.a, s.cpu.n)) =
    some (0xF0, true) := by decide
/-- L1.4: CMP of equal bytes. -/
theorem test_cmp_equal : after (exec (.cmpImm 0x10) (machine [] { awake with a := 0x10 }))
    (fun s => (s.cpu.z, s.cpu.c, s.cpu.n, s.cpu.a)) = some (true, true, false, 0x10) := by decide
/-- L2.2 #13: CMP $80 with $00, N is not a signed comparison. -/
theorem test_cmp_unsigned : after (exec (.cmpImm 0) (machine [] { awake with a := 0x80 }))
    (fun s => (s.cpu.n, s.cpu.z, s.cpu.c)) = some (true, false, true) := by decide
/-- L2.2 #14: CPX. -/
theorem test_cpx : after (exec (.cpxImm 0x10) (machine [] { awake with x := 0x0F }))
    (fun s => (s.cpu.n, s.cpu.z, s.cpu.c)) = some (true, false, false) := by decide
/-- L2.2 #15: CPY. -/
theorem test_cpy : after (exec (.cpyImm 0x20) (machine [] { awake with y := 0x30 }))
    (fun s => (s.cpu.n, s.cpu.z, s.cpu.c)) = some (false, false, true) := by decide
/-- L2.2 #19: BIT takes N and V from the operand. -/
theorem test_bit : after (exec (.bitZp 0x10) (machine [(0x10, 0xF0)] { awake with a := 0x0F }))
    (fun s => (s.cpu.n, s.cpu.v, s.cpu.z, s.cpu.a)) = some (true, true, true, 0x0F) := by decide
/-- L2.2 #21: INC wraps. -/
theorem test_inc : after (exec (.incZp 0x10) (machine [(0x10, 0xFF)] awake))
    (fun s => (s.cell .ram 0x10, s.cpu.z, s.cpu.n, s.cpu.sleep)) = some (0, true, false, 4) := by decide
/-- L2.7 #6: INC $1200,X costs 7. -/
theorem test_inc_absx : after (exec (.incAbsx 0x1200) (machine [(0x200, 1)] awake))
    (fun s => (s.cell .ram 0x200, s.cpu.sleep)) = some (2, 6) := by decide
/-- L2.2 #22: DEC wraps. -/
theorem test_dec : after (exec (.decZp 0x10) (machine [(0x10, 0)] awake))
    (fun s => (s.cell .ram 0x10, s.cpu.z, s.cpu.n)) = some (0xFF, false, true) := by decide
/-- L2.2 #23: INX. -/
theorem test_inx : after (exec .inx (machine [] { awake with x := 0xFF })) (fun s => (s.cpu.x, s.cpu.z)) =
    some (0, true) := by decide
/-- R233's example: INY. -/
theorem test_iny : after (exec .iny (machine [] { awake with y := 0xFF })) (fun s => (s.cpu.y, s.cpu.z)) =
    some (0, true) := by decide
/-- R234's example: DEX. -/
theorem test_dex : after (exec .dex (machine [] { awake with x := 1 })) (fun s => (s.cpu.x, s.cpu.z)) =
    some (0, true) := by decide
/-- L2.2 #24: DEY. -/
theorem test_dey : after (exec .dey (machine [] { awake with y := 0x80 })) (fun s => (s.cpu.y, s.cpu.n)) =
    some (0x7F, false) := by decide
/-- L2.3 #1: ASL A. -/
theorem test_asl_acc : after (exec .aslAcc (machine [] { awake with a := 0x81 }))
    (fun s => (s.cpu.a, s.cpu.n, s.cpu.z, s.cpu.c)) = some (2, false, false, true) := by decide
/-- L2.3: ASL $8000 sets the flags and drops the write. -/
theorem test_asl_rom : after (exec (.aslAbs 0x8000) (withRom [(0, 0x80)] awake))
    (fun s => (s.cell .prgRom 0, s.cpu.z, s.cpu.c, s.cpu.sleep)) = some (0x80, true, true, 5) := by decide
/-- L2.3: LSR $20. -/
theorem test_lsr : after (exec (.lsrZp 0x20) (machine [(0x20, 2)] awake))
    (fun s => (s.cell .ram 0x20, s.cpu.c, s.cpu.sleep)) = some (1, false, 4) := by decide
/-- L2.3 #6: ROL A. -/
theorem test_rol_acc : after (exec .rolAcc (machine [] { awake with a := 0x40, c := true }))
    (fun s => (s.cpu.a, s.cpu.n, s.cpu.c)) = some (0x81, true, false) := by decide
/-- L2.3 #5: ROL in memory. -/
theorem test_rol : after (exec (.rolZp 0x20) (machine [(0x20, 0x80)] { awake with c := true }))
    (fun s => (s.cell .ram 0x20, s.cpu.n, s.cpu.z, s.cpu.c)) = some (1, false, false, true) := by decide
/-- R253's example: ROR A. -/
theorem test_ror_acc : after (exec .rorAcc (machine [] { awake with a := 1, c := true }))
    (fun s => (s.cpu.a, s.cpu.n, s.cpu.z, s.cpu.c)) = some (0x80, true, false, true) := by decide
/-- L2.4 #2: PHA with S = 0 wraps. -/
theorem test_pha : after (exec .pha (machine [] { awake with a := 0x99, s := 0 }))
    (fun s => (s.cell .ram 0x100, s.cpu.s, s.cpu.sleep)) = some (0x99, 0xFF, 2) := by decide
/-- L2.4 #6: PHP of I alone. -/
theorem test_php : after (exec .php (machine [] { awake with i := true }))
    (fun s => (s.cell .ram 0x1FD, s.cpu.s)) = some (0x34, 0xFC) := by decide
/-- L2.4 #3: PLA with S = $FF wraps. -/
theorem test_pla : after (exec .pla (machine [(0x100, 0)] { awake with a := 9, s := 0xFF }))
    (fun s => (s.cpu.a, s.cpu.z, s.cpu.s)) = some (0, true, 0) := by decide
/-- L2.4 #8: PLP of $30 clears all six. -/
theorem test_plp : after (exec .plp (machine [(0x1FD, 0x30)] { awake with s := 0xFC, c := true, n := true }))
    (fun s => (s.cpu.n, s.cpu.c, s.cpu.i, s.cpu.s)) = some (false, false, false, 0xFD) := by decide
/-- L2.5 #1: JMP $C000. -/
theorem test_jmp : after (exec (.jmpAbs 0xC000) (machine [] awake)) (fun s => (s.cpu.pc, s.cpu.sleep)) =
    some (0xC000, 2) := by decide
/-- L2.5 #3: JMP ($02FF), the page-wrap bug. -/
theorem test_jmp_ind : after (exec (.jmpInd 0x02FF) (machine [(0x200, 0x12), (0x2FF, 0x34), (0x300, 0x56)] awake))
    (fun s => (s.cpu.pc, s.cpu.sleep)) = some (0x1234, 4) := by decide
/-- L2.5 #4: JSR $8100 at $8000 with S = 0. -/
theorem test_jsr : after (exec (.jsr 0x8100) (machine [] { awake with s := 0, pc := 0x8003 }))
    (fun s => (s.cell .ram 0x100, s.cell .ram 0x1FF, s.cpu.s, s.cpu.pc)) = some (0x80, 0x02, 0xFE, 0x8100) := by decide
/-- L2.5 #5: RTS to $0000. -/
theorem test_rts : after (exec .rts (machine [(0x1FC, 0xFF), (0x1FD, 0xFF)] { awake with s := 0xFB }))
    (fun s => (s.cpu.pc, s.cpu.s, s.cpu.sleep)) = some (0, 0xFD, 5) := by decide
/-- L2.5 #12: BCC +$20 at $80F0 crosses a page. -/
theorem test_bcc : after (exec (.bcc 0x20) (machine [] { awake with pc := 0x80F2 }))
    (fun s => (s.cpu.pc, s.cpu.sleep)) = some (0x8112, 3) := by decide
/-- L2.5 #10 and #11: BCS not taken, and to itself. -/
theorem test_bcs : after (exec (.bcs 0x20) (machine [] { awake with pc := 0x8002 }))
    (fun s => (s.cpu.pc, s.cpu.sleep)) = some (0x8002, 1) ∧
    after (exec (.bcs 0xFE) (machine [] { awake with pc := 0x8002, c := true })) (fun s => (s.cpu.pc, s.cpu.sleep)) =
    some (0x8000, 2) := by decide
/-- L2.5 #6: BEQ -4 at $8010. -/
theorem test_beq : after (exec (.beq 0xFC) (machine [] { awake with pc := 0x8012, z := true }))
    (fun s => (s.cpu.pc, s.cpu.sleep)) = some (0x800E, 2) := by decide
/-- L1.5: BNE +$7F at $80F0 costs 4. -/
theorem test_bne : after (exec (.bne 0x7F) (machine [] { awake with pc := 0x80F2 }))
    (fun s => (s.cpu.pc, s.cpu.sleep)) = some (0x8171, 3) := by decide
/-- L2.5 #7: BMI -128 at $8100. -/
theorem test_bmi : after (exec (.bmi 0x80) (machine [] { awake with pc := 0x8102, n := true }))
    (fun s => (s.cpu.pc, s.cpu.sleep)) = some (0x8082, 3) := by decide
/-- R279's example: BPL at $8005. -/
theorem test_bpl : after (exec (.bpl 0xFB) (machine [] { awake with pc := 0x8007 }))
    (fun s => (s.cpu.pc, s.cpu.sleep)) = some (0x8002, 2) := by decide
/-- R280's example: BVC not taken. -/
theorem test_bvc : after (exec (.bvc 0x10) (machine [] { awake with pc := 0x8002, v := true }))
    (fun s => (s.cpu.pc, s.cpu.sleep)) = some (0x8002, 1) := by decide
/-- L2.5 #9: BVS +0. -/
theorem test_bvs : after (exec (.bvs 0) (machine [] { awake with pc := 0x8002, v := true }))
    (fun s => (s.cpu.pc, s.cpu.sleep)) = some (0x8002, 2) := by decide
/-- L2.6 #1 to #7: the flag instructions. -/
theorem test_flag_instructions :
    after (exec .clc (machine [] { awake with c := true })) (fun s => s.cpu.c) = some false ∧
    after (exec .sec (machine [] awake)) (fun s => s.cpu.c) = some true ∧
    after (exec .cli (machine [] { awake with i := true })) (fun s => s.cpu.i) = some false ∧
    after (exec .sei (machine [] awake)) (fun s => s.cpu.i) = some true ∧
    after (exec .cld (machine [] { awake with d := true })) (fun s => s.cpu.d) = some false ∧
    after (exec .sed (machine [] awake)) (fun s => s.cpu.d) = some true ∧
    after (exec .clv (machine [] { awake with v := true })) (fun s => s.cpu.v) = some false := by decide
/-- L2.6 #9: BRK at $8000. -/
theorem test_brk : after (exec .brk (withRom [(0x3FFE, 0x10), (0x3FFF, 0x80)] { awake with pc := 0x8001, i := true }))
    (fun s => (s.cell .ram 0x1FD, s.cell .ram 0x1FC, s.cell .ram 0x1FB, s.cpu.s, s.cpu.pc, s.cpu.sleep)) =
    some (0x80, 0x02, 0x34, 0xFA, 0x8010, 6) := by decide
/-- L2.6 #10: BRK does not clear D. -/
theorem test_brk_keeps_d : after (exec .brk (machine [] { awake with d := true, c := true }))
    (fun s => (s.cell .ram 0x1FB, s.cpu.i, s.cpu.d)) = some (0x39, true, true) := by decide
/-- L2.6 #12: RTI. -/
theorem test_rti : after (exec .rti (machine [(0x1FB, 0xC3), (0x1FC, 0x34), (0x1FD, 0x12)] { awake with s := 0xFA }))
    (fun s => (s.cpu.status false, s.cpu.pc, s.cpu.s, s.cpu.sleep)) = some (0xE3, 0x1234, 0xFD, 5) := by decide

/-! ## Steps: fetch, sleep, interrupts, resets -/

/-- L2.6 #8: NOP at $8000, PC and cost, through the fetch. -/
theorem test_step_nop : after (cpuStep (withRom [(0, 0xEA)] awake))
    (fun s => (s.cpu.pc, s.cpu.sleep, s.cpu.trace.map Trace.opcode)) = some (0x8001, 1, some 0xEA) := by decide +kernel
/-- L2.8 #4: LDA $4016 reads the operand's high byte. -/
theorem test_step_open_bus : after (cpuStep (withRom [(0, 0xAD), (1, 0x16), (2, 0x40)] awake))
    (fun s => (s.cpu.a, s.cpu.pc)) = some (0x40, 0x8003) := by decide +kernel
/-- L2.8 #10: an operand word across $1FFF/$2000 is fatal. -/
theorem test_step_port_word_read : (faultOf (cpuStep (machine [(0x7FE, 0xAD)] { awake with pc := 0x1FFE }))).map
    (fun f => match f with | .portWordRead a _ => some a | _ => none) = some (some 0x1FFF) := by decide +kernel
/-- L2.9 #1: NMI entry. -/
theorem test_step_nmi : after (cpuStep (withRom [(0x3FFB, 0x90)]
      { awake with pc := 0x8123, c := true, nmiPending := true }))
    (fun s => [s.cell .ram 0x1FD == 0x81, s.cell .ram 0x1FC == 0x23, s.cell .ram 0x1FB == 0x21, s.cpu.s == 0xFA,
      s.cpu.i, s.cpu.pc == 0x9000, s.cpu.sleep == 6].all id) = some true := by decide +kernel
/-- L2.9 #3: IRQ entry leaves the latch set. -/
theorem test_step_irq : after (cpuStep (withRom [(0x3FFF, 0xA0)] { awake with pc := 0x8005, irqPending := true }))
    (fun s => (s.cell .ram 0x1FD, s.cell .ram 0x1FC, s.cpu.pc, s.cpu.irqPending)) =
    some (0x80, 0x05, 0xA000, true) := by decide +kernel
/-- L2.9 #6: a sleeping step tests no latch. -/
theorem test_step_sleeps : after (cpuStep (machine [] { awake with sleep := 3, nmiPending := true }))
    (fun s => (s.cpu.sleep, s.cpu.nmiPending)) = some (2, true) := by decide
/-- L2.9 #7: an unregistered opcode under the lenient policy. -/
theorem test_step_lenient : after (cpuStep (withRom [(0, 0x02)] awake))
    (fun s => (s.cpu.pc, s.cpu.unsupportedSeen, s.cpu.sleep)) = some (0x8001, some ⟨0x02, 0x8000⟩, 1) := by decide +kernel
/-- L2.9 #10: BRK with the vector bytes $FF $FF. -/
theorem test_brk_bad_vector : (faultOf (exec .brk (withRom [(0x3FFE, 0xFF), (0x3FFF, 0xFF)] awake))).map
    (fun f => match f with | .badVector v _ => some v | _ => none) = some (some 0xFFFE) := by decide
/-- L2.10 #3 and #5: soft reset. -/
theorem test_soft_reset : after (softReset (machine [] { awake with s := 0xF0, a := 0x12, nmiPending := true }))
    (fun s => [s.cpu.s == 0xED, s.cpu.i, s.cpu.a == 0x12, s.cpu.pc == 0x8000, !s.cpu.nmiPending, s.ram == []].all id) =
    some true := by decide
/-- L2.10 #6: the entry override bypasses a bad vector. -/
theorem test_entry_override : after (powerOn { Launch.standard with
      entryOverride := some 0xC000, cart := { Cartridge.standard with prgRom := [(0x3FFC, 0xFF), (0x3FFD, 0xFF)] } })
    (fun s => (s.cpu.pc, s.cpu.sleep)) = some (0xC000, 6) := by decide
/-- L1.13 and 60 R421: a launch's reset vector of $FFFF is fatal: on record, the clock stopped, the state no end of a run. -/
theorem test_reset_bad_vector : ((faultOf (powerOn { Launch.standard with
      cart := { Cartridge.standard with prgRom := [(0x3FFC, 0xFF), (0x3FFD, 0xFF)] } })).bind Fault.after).map
    (fun s => [s.faults == [.badVector 0xFFFC], s.stopped, after (step s) (fun t => t.ppu.dot) == some 0,
      !atLoopEnd 0 { s with cpu := { s.cpu with sleep := 0 } }].all id) = some true := by decide +kernel
/-- Log 21: a hard reset of a running machine whose vector reads $FFFF leaves PC and sleep; a power-on leaves 0 and 6. -/
theorem test_reset_bad_vector_pc :
    ([hardReset, powerCycle].map fun reset => ((faultOf (reset (withRom [(0x3FFC, 0xFF), (0x3FFD, 0xFF)]
      { awake with pc := 0x8123, sleep := 2 }))).bind Fault.after).map
        (fun s => (s.cpu.pc, s.cpu.sleep, s.cpu.s, s.busLatch))) =
    [some (0x8123, 2, 0xFD, 0xFF), some (0, 6, 0xFD, 0xFF)] := by decide +kernel
/-- 62 R614 and 70 R704: a hard reset of the running machine keeps mapper registers, PRG-RAM and OAM; a power-on (R705)
does not. -/
def used : State :=
  { withMapper 2 (.mmc1 { Mmc1.powerOn with chr0 := 3 }) (machine [(5, 1)] awake) with
    ppu := { Ppu.powerOn with oam := [(0, 7)], mask := 0x18 } }
theorem test_hard_reset_running : after (hardReset { used with stopped := true })
    (fun s => [s.mapper.regs == .mmc1 { Mmc1.powerOn with chr0 := 3 }, s.ppu.oam == [(0, 7)], s.ppu.mask == 0, s.ram == [],
      !s.stopped].all id) = some true := by decide
theorem test_power_on : after (powerCycle { used with faults := [.badVector 0xFFFE] })
    (fun s => (s.mapper.regs, s.ppu.oam, s.ram, s.faults)) = some (.nrom, [], [], []) := by decide
/-- 70 R721: a fatal condition stops the clock in the state it leaves, and no tick runs there until a reset. -/
theorem test_fatal_stops_clock :
    ((faultOf (step (withRom [(0, 0x00), (0x3FFE, 0xFF), (0x3FFF, 0xFF)] awake))).bind Fault.after).map
      (fun s => [s.faults == [.badVector 0xFFFE], s.stopped, s.cpu.s == 0xFA,
        after (step s) (fun t => t.ppu.dot == s.ppu.dot) == some true,
        (faultOf (step { s with hostRequest := some .hardReset })).isNone].all id) = some true := by decide +kernel
/-- 60 R408 and 70 R721: after a strict-policy failure the host may step on, the fault kept. -/
theorem test_failure_goes_on :
    ((faultOf (step { withRom [(0, 0x02), (1, 0xE8)] awake with
        launch := { Launch.standard with
          strictOpcodes := true, cart := { Cartridge.standard with prgRom := [(0, 0x02), (1, 0xE8)] } } })).bind
      Fault.after).bind (fun s => after (step s) (fun t => (t.cpu.x, t.stopped, t.faults))) =
    some (1, false, [.invalidOpcode 0x02 0x8000]) := by decide +kernel
/-- 70 R703: from reset the first instruction is fetched at the seventh step; the first six only count. -/
theorem test_reset_sleeps : after (step State.reset) (fun s => (s.cpu.sleep, s.cpu.pc, s.ppu.dot)) =
    some (5, 0x8000, 3) := by decide +kernel
/-- The interface's first step with a placed instruction runs it: LDA #$80. -/
theorem test_with_fetch_word : after (step (State.reset.withFetchWord 16 0x80A9)) (fun s => (s.cpu.a, s.cpu.pc)) =
    some (0x80, 0x8002) := by decide +kernel

/-! ## PPU ports and dots -/

/-- L2.11 #2: the two writes of port 5. -/
theorem test_port_scroll : (fun s : State => (s.ppu.t, s.ppu.x, s.ppu.w))
    (busWrite 0x2005 0x5E (busWrite 0x2005 0x7D State.reset)) = (0x616F, 5, false) := by decide
/-- L2.11 #3: the two writes of port 6. -/
theorem test_port_address : (fun s : State => (s.ppu.t, s.ppu.v, s.ppu.w))
    (busWrite 0x2006 0x08 (busWrite 0x2006 0x21 State.reset)) = (0x2108, 0x2108, false) := by decide
/-- L2.11 #4: the status port. -/
theorem test_port_status : (busRead 0x3FFA { State.reset with
      ppu := { Ppu.powerOn with vblank := true, w := true, ioLatch := 0x1F } }).1 = 0x9F := by decide
/-- L2.11 #5: the delayed read of port 7. -/
theorem test_port_data : (fun r : Byte × State => (r.1, r.2.ppu.readBuffer, r.2.ppu.v)) (busRead 0x2007 { State.reset with
      ppu := { Ppu.powerOn with v := 0x2108, vram := [(0x108, 0x5A)] } }) = (0x00, 0x5A, 0x2109) := by decide
/-- L2.11 #7 and #8: palette mirror and mask. -/
theorem test_palette : ppuRead (ppuWrite State.reset 0x3F10 0x2C) 0x3F00 = 0x2C ∧
    ppuRead (ppuWrite State.reset 0x3F11 0xFF) 0x3F11 = 0x3F := by decide
/-- L2.11 #9: vertical mirroring. -/
theorem test_vertical_mirroring : ppuRead (ppuWrite State.reset 0x2800 0x66) 0x2000 = 0x66 := by decide
/-- L2.11 #14: NMI on enabling it during vblank. -/
theorem test_nmi_on_enable : (busWrite 0x2000 0x80 { State.reset with
      ppu := { Ppu.powerOn with vblank := true } }).cpu.nmiPending = true := by decide
/-- L1.10: the Y increment. -/
theorem test_inc_y : [0x73A5, 0x7BA5, 0x7385, 0x73C5, 0x73E5, 0x23A5].map incY =
    [0x0805, 0x0005, 0x03A5, 0x03E5, 0x0005, 0x33A5] := by decide
/-- L2.11 #11 and #12: the coarse-X increment. -/
theorem test_inc_coarse_x : [0x041F, 0x001F].map incCoarseX = [0x0000, 0x0400] := by decide
/-- L1.11: vblank and NMI at 241/1. -/
theorem test_vblank : (fun s : State => (s.ppu.vblank, s.cpu.nmiPending)) (ppuTick { State.reset with
      ppu := { Ppu.powerOn with ctrl := 0x80, scanline := 241, dot := 1 } }) = (true, true) := by decide +kernel
/-- L2.11 #23: the odd-frame skip. -/
theorem test_odd_frame : (fun s : State => (s.ppu.scanline, s.ppu.dot, s.ppu.oddFrame)) (ppuTick { State.reset with
      ppu := { Ppu.powerOn with mask := 0x08, scanline := 261, dot := 339, oddFrame := true } }) = (0, 0, false) := by
  decide +kernel
/-- OAM with nine sprites at Y = $30, and none else in range. -/
def nineSprites : Mem := (List.range 64).map fun n => (4 * n, if n < 9 then 0x30 else 0xF0)
/-- L2.11 #18: sprite evaluation on line $30. -/
theorem test_sprite_overflow : (fun s : State => (s.ppu.secondary.length, s.ppu.spriteOverflow))
    (evaluateSprites { State.reset with ppu := { Ppu.powerOn with oam := nineSprites, scanline := 0x30 } }) =
    (8, true) := by decide +kernel
/-- L2.11 #20 and #21: sprite-0 hit at x = 4, and its masking in the left columns. -/
def spritePixel (mask : Byte) (dot : Nat) : Bool :=
  (outputPixel { State.reset with ppu := { Ppu.powerOn with
    mask := mask, dot := dot, bgPatLo := 0x8000, sprites := [⟨0, BitVec.ofNat 8 (dot - 1), 0, 0x80, 0⟩] } }).ppu.sprite0Hit
theorem test_sprite_zero : (spritePixel 0x1E 5, spritePixel 0x18 5, spritePixel 0x1E 256) = (true, false, false) := by
  decide +kernel

/-- 61 R568: an opaque background with palette 2 under a sprite, in front of it and behind; dot 5 of line 3. -/
def drawnPixel (attr : Byte) : Option Colour :=
  frameGet (ppuTick { State.reset with ppu := { Ppu.powerOn with
    mask := 0x1E, scanline := 3, dot := 5, bgPatLo := 0x4000, bgAtHi := 0x4000
    palette := [(9, 0x21), (0x15, 0x16)], sprites := [⟨7, 4, attr, 0x80, 0⟩] } }).ppu.backFrame (3 * 256 + 4)
theorem test_pixel : (drawnPixel 0x01, drawnPixel 0x21) = (some 0x16, some 0x21) := by decide +kernel

/-- 61 R554: at dot 4 the attribute byte of the tile in column 2, row 2: its quadrant's bits are 7 and 6. -/
theorem test_attribute_fetch : (ppuTick { State.reset with ppu := { Ppu.powerOn with
    mask := 0x08, dot := 4, v := 0x42, vram := [(0x3C0, 0x80)] } }).ppu.atLatch = 2 := by decide +kernel
/-- The standard machine with these bytes in its pattern memory. -/
def withChr (m : Mem) (p : Ppu) : State :=
  { State.reset with launch := { Launch.standard with cart := { Cartridge.standard with chrRom := m } }, ppu := p }
/-- 61 R553: at dot 8 plane 1 of tile 3's row 5 in table 1, $1000 + 48 + 5 + 8. -/
theorem test_pattern_fetch : (ppuTick (withChr [(0x103D, 0xAB)] { Ppu.powerOn with
    mask := 0x08, ctrl := 0x10, dot := 8, v := 0x5000, ntLatch := 3 })).ppu.patHiLatch = 0xAB := by decide +kernel
/-- 61 R565: an 8 by 16 sprite of tile $03, flipped both ways, its second line: row 14, so row 6 of tile 3 in table 1. -/
theorem test_sprite_fetch : (ppuTick (withChr [(0x1036, 0x01), (0x103E, 0x02)] { Ppu.powerOn with
    mask := 0x10, ctrl := 0x20, scanline := 0x10, dot := 321, secondary := [⟨4, 0x0F, 0x03, 0xC0, 0x20⟩] })).ppu.sprites =
    [⟨4, 0x20, 0xC0, 0x80, 0x40⟩] := by decide +kernel

/-! ## Mappers -/

/-- 62 R633 modulo the pages (R605): three pages, PRG mode 0, prg = 2 gives banks 2 and 0. -/
theorem test_odd_pages :
    ((prgWindow { Cartridge.standard with prgPages := 3 } (.mmc1 { Mmc1.powerOn with control := 0, prg := 2 }) 0x8000).offset,
     (prgWindow { Cartridge.standard with prgPages := 3 } (.mmc1 { Mmc1.powerOn with control := 0, prg := 2 }) 0xC000).offset) =
    (0x8000, 0) := by decide

/-- L2.12 #3: five serial writes, and the windows in mode 3 with 8 pages. -/
theorem test_mmc1_serial : (((((Mmc1.powerOn.write 0xE000 1).write 0xE000 0).write 0xE000 1).write 0xE000 0).write 0xE000
      0).prg = 5 ∧
    (prgWindow { Cartridge.standard with prgPages := 8 } (.mmc1 { Mmc1.powerOn with prg := 5 }) 0x8000).offset =
      5 * 0x4000 ∧
    (prgWindow { Cartridge.standard with prgPages := 8 } (.mmc1 { Mmc1.powerOn with prg := 5 }) 0xC000).offset =
      7 * 0x4000 := by decide
/-- L2.12 #9 and #10: the MMC3 windows of R650. -/
theorem test_mmc3_windows : [0x8000, 0xA000, 0xC000, 0xE000].map (fun a =>
      ((prgWindow { Cartridge.standard with prgPages := 4 } (.mmc3 { Mmc3.powerOn with r6 := 3, r7 := 9 }) a).offset,
       (prgWindow { Cartridge.standard with prgPages := 4 }
         (.mmc3 { Mmc3.powerOn with r6 := 3, r7 := 9, bankSelect := 0x40 }) a).offset)) =
    [(3 * 0x2000, 6 * 0x2000), (1 * 0x2000, 1 * 0x2000), (6 * 0x2000, 3 * 0x2000), (7 * 0x2000, 7 * 0x2000)] := by decide
/-- L1.9: the IRQ counter with latch 3, after 3 and after 4 calls. -/
theorem test_mmc3_irq : (fun s : State => ((onScanline (onScanline (onScanline s))).cpu.irqPending,
      (onScanline (onScanline (onScanline (onScanline s)))).cpu.irqPending))
    { State.reset with mapper := { State.reset.mapper with
        regs := .mmc3 { Mmc3.powerOn with irqLatch := 3, irqReload := true, irqEnabled := true } } } = (false, true) := by
  decide
/-- L2.12 #16: the IRQ-disable write acknowledges. -/
theorem test_mmc3_acknowledge : (fun s : State => s.cpu.irqPending) (busWrite 0xE000 0 { State.reset with
      cpu := { awake with irqPending := true }
      mapper := { State.reset.mapper with regs := .mmc3 { Mmc3.powerOn with irqEnabled := true } } }) = false := by decide
/-- L2.12 #17: PRG-RAM write-protected. -/
theorem test_mmc3_protect : (fun s : State => s.mapper.prgRam) (busWrite 0x6000 5 { State.reset with
      mapper := { regs := .mmc3 { Mmc3.powerOn with prgRamProtect := 0xC0 }, prgRam := [(0, 9)], chrRam := [] } }) =
    [(0, 9)] := by decide

/-! ## Witnesses: states and operands that meet an obligation's hypotheses together -/

theorem witness_decodeEncode : (Instr.staAbs 0xFFFF).WellFormed := by decide
theorem witness_encodeDecode : decode [0x4C, 0xFF, 0xFF, 0x12] = .ok (.jmpAbs 0xFFFF, [0x12]) := rfl
theorem witness_unregistered : (0x02 : Byte) ∈ unregisteredOpcodes ∧ (0xFF : Byte) ∈ unregisteredOpcodes ∧
    (0x00 : Byte) ∉ unregisteredOpcodes ∧ (0xFE : Byte) ∉ unregisteredOpcodes := by decide
/-- Every clause of StepRunsDecodedInstruction: one, two and three bytes in ROM, and a word across $1FFF/$2000. -/
theorem witness_stepRuns :
    (fun s : State => (s.hostRequest, s.shutdown || s.stopped, (threeDots s).cpu.sleep, (threeDots s).cpu.nmiPending,
      (threeDots s).cpu.irqPending)) (withRom [(0, 0xEA)] awake) = (none, false, 0, false, false) ∧
    reads [(busRead 0x8000 (withRom [(0, 0xEA)] awake)).1] = some .nop ∧
    reads [(busRead 0x8000 (withRom [(0, 0xA9)] awake)).1, 0x00] = some (.ldaImm 0) ∧
    reads [(busRead 0x8000 (withRom [(0, 0x4C)] awake)).1, 0x00, 0x00] = some (.jmpAbs 0) ∧
    (isPort 0x8001 || isPort 0x8002) = false ∧ (isPort 0x1FFF || isPort 0x2000) = true ∧
    (isPort 0x3FFF || isPort 0x4000) = true ∧ (isPort 0x4000 || isPort 0x4001) = false := by decide +kernel
theorem witness_stepIsTick : State.reset.hostRequest = none ∧ (State.reset.shutdown || State.reset.stopped) = false ∧
    ({ State.reset with hostRequest := some .powerOn } : State).hostRequest = some .powerOn ∧
    ({ State.reset with hostRequest := some .hardReset } : State).hostRequest = some .hardReset ∧
    ({ State.reset with hostRequest := some .softReset } : State).hostRequest = some .softReset ∧
    ({ State.reset with shutdown := true } : State).shutdown = true ∧
    ({ State.reset with stopped := true } : State).stopped = true ∧
    after (step State.reset) (fun t => t.faults) = some [] := by decide +kernel
theorem witness_sleeping : 0 < State.reset.cpu.sleep ∧ 0 < (machine [] { awake with sleep := 1 }).cpu.sleep := by decide
theorem witness_priority : (machine [] { awake with nmiPending := true, i := true }).cpu.sleep = 0 ∧
    (machine [] { awake with nmiPending := true, i := true }).cpu.nmiPending = true ∧
    (fun s : State => (s.cpu.nmiPending, s.cpu.irqPending, s.cpu.i)) (machine [] { awake with irqPending := true }) =
      (false, true, false) ∧
    (fun s : State => (s.cpu.nmiPending, s.cpu.irqPending, s.cpu.i))
      (machine [] { awake with irqPending := true, i := true }) = (false, true, true) := by decide
theorem witness_unregisteredPolicy : (fun s : State => (s.cpu.sleep, s.cpu.nmiPending, s.cpu.irqPending,
      s.launch.strictOpcodes)) (withRom [(0, 0xFF)] awake) = (0, false, false, false) ∧
    (busRead 0x8000 (withRom [(0, 0xFF)] awake)).1 ∈ unregisteredOpcodes ∧
    ({ withRom [(0, 0xFF)] awake with
      launch := { (withRom [(0, 0xFF)] awake).launch with strictOpcodes := true } } : State).launch.strictOpcodes = true ∧
    (busRead 0x8000 { withRom [(0, 0xFF)] awake with
      launch := { (withRom [(0, 0xFF)] awake).launch with strictOpcodes := true } }).1 ∈ unregisteredOpcodes := by
  decide +kernel
/-- Good and bad vectors for NMI, IRQ, BRK and reset. -/
theorem witness_vectors : vectorWord .nmi State.reset ≠ 0xFFFF ∧ vectorWord .irq State.reset ≠ 0xFFFF ∧
    vectorWord .brk State.reset ≠ 0xFFFF ∧ vectorWord .reset State.reset ≠ 0xFFFF ∧
    vectorWord .nmi (withRom [(0x3FFA, 0xFF), (0x3FFB, 0xFF)] awake) = 0xFFFF ∧
    vectorWord .irq (withRom [(0x3FFE, 0xFF), (0x3FFF, 0xFF)] awake) = 0xFFFF ∧
    vectorWord .brk (withRom [(0x3FFE, 0xFF), (0x3FFF, 0xFF)] awake) = 0xFFFF ∧
    vectorWord .reset (withRom [(0x3FFC, 0xFF), (0x3FFD, 0xFF)] awake) = 0xFFFF ∧
    vectorWord .nmi (withRom [(0x3FFA, 0xFE), (0x3FFB, 0xFF)] awake) = 0xFFFE := by decide +kernel
theorem witness_returns : (∃ t, takeInterrupt .nmi (machine [] awake) = .next t) ∧
    (∃ t, takeInterrupt .brk (machine [] { awake with s := 0 }) = .next t) ∧
    ∃ t, exec (.jsr 0x8000) (machine [] { awake with s := 0 }) = .next t := ⟨⟨_, rfl⟩, ⟨_, rfl⟩, ⟨_, rfl⟩⟩
/-- LatchesUnderInstructions: an NMI latched, an IRQ not latched, and a latched IRQ that the $E000 write clears. -/
theorem witness_latches :
    after (exec .nop (machine [] { awake with nmiPending := true })) (fun s => s.cpu.nmiPending) = some true ∧
    after (exec .nop (machine [] awake)) (fun s => s.cpu.irqPending) = some false ∧
    after (exec (.staAbs 0xE000) (withMapper 2 (.mmc3 Mmc3.powerOn) (machine [] { awake with irqPending := true })))
      (fun s => s.cpu.irqPending) = some false ∧
    (Instr.staAbs 0xE000).operand = .src (.mem (.abs 0xE000)) := by decide
/-- RegisterAndFlagWriters: each of the ten registers and flags is changed by some completing instruction. -/
theorem witness_writers :
    after (exec (.ldaImm 1) (machine [] awake)) (fun s => s.cpu.a) = some 1 ∧
    after (exec (.ldxImm 1) (machine [] awake)) (fun s => s.cpu.x) = some 1 ∧
    after (exec (.ldyImm 1) (machine [] awake)) (fun s => s.cpu.y) = some 1 ∧
    after (exec .pha (machine [] awake)) (fun s => s.cpu.s) = some 0xFC ∧
    after (exec .sec (machine [] awake)) (fun s => s.cpu.c) = some true ∧
    after (exec (.ldaImm 0) (machine [] awake)) (fun s => s.cpu.z) = some true ∧
    after (exec (.ldaImm 0x80) (machine [] awake)) (fun s => s.cpu.n) = some true ∧
    after (exec .sei (machine [] awake)) (fun s => s.cpu.i) = some true ∧
    after (exec .sed (machine [] awake)) (fun s => s.cpu.d) = some true ∧
    after (exec (.adcImm 0x7F) (machine [] { awake with a := 1 })) (fun s => s.cpu.v) = some true := by decide
theorem witness_costs : ∃ t, exec .nop State.reset = .next t := ⟨_, rfl⟩
theorem witness_ramMirrors : (0x1FFF : Word).toNat < 0x2000 ∧ (0x07FF : Word).toNat < 0x2000 ∧
    (0x1FFF : Word).toNat % 0x800 = (0x07FF : Word).toNat % 0x800 ∧
    (0x0000 : Word).toNat % 0x800 ≠ (0x07FF : Word).toNat % 0x800 := by decide
theorem witness_openBus : busSelect State.reset 0x4000 = .openBus ∧ busSelect State.reset 0x5FFF = .openBus ∧
    busSelect State.reset 0x7FFF = .openBus ∧ busSelect State.reset 0x3FFF ≠ .openBus ∧
    busSelect State.reset 0x8000 ≠ .openBus := by decide
/-- StoreMap and PortSideEffects: addresses at both ends of every range, and the ports. -/
theorem witness_addressRanges :
    [0x0000, 0x1FFF].all (fun a : Word => a.toNat < 0x2000) = true ∧
    [0x2000, 0x2004, 0x2007, 0x3FFA, 0x3FFF].all (fun a : Word => 0x2000 ≤ a.toNat && a.toNat < 0x4000) = true ∧
    [0x4000, 0x5FFF].all (fun a : Word => 0x4000 ≤ a.toNat && a.toNat < 0x6000) = true ∧
    [0x6000, 0x7FFF].all (fun a : Word => 0x6000 ≤ a.toNat && a.toNat < 0x8000) = true ∧
    [0x8000, 0xFFFF].all (fun a : Word => 0x8000 ≤ a.toNat) = true ∧
    (0x2004 : Word).toNat % 8 = 4 ∧ (0x3FFF : Word).toNat % 8 = 7 ∧ (0x3FFA : Word).toNat % 8 = 2 := by decide
/-- RomAddressWrites, FixedBankWindows, BankedPrgWindows: a state of each variant. -/
theorem witness_variants : State.reset.mapper.regs = .nrom ∧ 0x8000 ≤ (0x8000 : Word).toNat ∧
    (withMapper 8 (.mmc1 Mmc1.powerOn) State.reset).mapper.regs = .mmc1 Mmc1.powerOn ∧
    (withMapper 8 (.mmc3 Mmc3.powerOn) State.reset).mapper.regs = .mmc3 Mmc3.powerOn := by decide
theorem witness_wordReads : (isPort 0x1FFF || isPort (0x1FFF + 1)) = true ∧ (isPort 0x3FFF || isPort (0x3FFF + 1)) = true ∧
    (isPort 0x1FFE || isPort (0x1FFE + 1)) = false ∧ (isPort 0xFFFF || isPort (0xFFFF + 1)) = false := by decide
theorem witness_softReset : State.reset.launch.entryOverride = none ∧ vectorWord .reset State.reset ≠ 0xFFFF ∧
    vectorWord .reset (withRom [(0x3FFC, 0xFF), (0x3FFD, 0xFF)] awake) = 0xFFFF ∧
    ({ State.reset with launch := { Launch.standard with entryOverride := some 0xC000 } } : State).launch.entryOverride =
      some 0xC000 := by decide
theorem witness_hardReset :
    ({ Launch.standard with entryOverride := some 0xC000 } : Launch).entryOverride = some 0xC000 ∧
    Launch.standard.entryOverride = none ∧ vectorWord .reset (powerOnState Launch.standard) ≠ 0xFFFF ∧
    vectorWord .reset (powerOnState { Launch.standard with
      cart := { Cartridge.standard with prgRom := [(0x3FFC, 0xFF), (0x3FFD, 0xFF)] } }) = 0xFFFF ∧
    Launch.standard.cart.hasTrainer = false ∧ (List.replicate 512 (1 : Byte)).length = 512 := by decide +kernel
/-- TickDrawsAndAdvances, ScrollIncrements, ScanlineHook: dots and lines where the clauses meet. -/
theorem witness_dots : ([(0, 0), (0, 339), (0, 340), (261, 339), (261, 340)] : List (Nat × Nat)).all
      (fun p => p.1 ≤ 261 && p.2 ≤ 340) = true ∧
    (fun p : Ppu => p.scanline = 261 ∧ p.dot = 339 ∧ p.oddFrame = true ∧ (p.mask.getLsbD 3 || p.mask.getLsbD 4) = true)
      { Ppu.powerOn with mask := 0x08, scanline := 261, dot := 339, oddFrame := true } ∧
    (fun p : Ppu => p.dot = 260 ∧ (p.scanline < 240 ∨ p.scanline = 261) ∧
      (p.mask.getLsbD 3 || p.mask.getLsbD 4) = true) { Ppu.powerOn with mask := 0x10, scanline := 239, dot := 260 } ∧
    ¬ (fun p : Ppu => p.dot = 260 ∧ (p.scanline < 240 ∨ p.scanline = 261) ∧
      (p.mask.getLsbD 3 || p.mask.getLsbD 4) = true) { Ppu.powerOn with mask := 0x10, scanline := 240, dot := 260 } := by
  decide
/-- PortSideEffects: an address of every port, both ends of the range among them. -/
theorem witness_ports : ([0x2000, 0x2001, 0x2002, 0x2003, 0x2004, 0x2005, 0x2006, 0x2007, 0x3FFF] : List Word).map
      (fun a => (decide (0x2000 ≤ a.toNat) && decide (a.toNat < 0x4000), a.toNat % 8)) =
    [(true, 0), (true, 1), (true, 2), (true, 3), (true, 4), (true, 5), (true, 6), (true, 7), (true, 7)] ∧
    State.reset.ppu.w = false ∧ (busWrite 0x2005 0 State.reset).ppu.w = true := by decide
/-- PortSideEffects: a VRAM address below and from $3F00. -/
theorem witness_dataPort : ((0x3EFF : VramAddr).setWidth 14 : PpuAddr).toNat < 0x3F00 ∧
    0x3F00 ≤ ((0x3F00 : VramAddr).setWidth 14 : PpuAddr).toNat := by decide
/-- PpuBusReadsBack: both ends of the three ranges, and addresses that share and do not share an entry or a byte. -/
theorem witness_ppuBus : (0x0000 : PpuAddr).toNat < 0x2000 ∧ (0x1FFF : PpuAddr).toNat < 0x2000 ∧
    0x2000 ≤ (0x2000 : PpuAddr).toNat ∧ (0x3EFF : PpuAddr).toNat < 0x3F00 ∧ 0x3F00 ≤ (0x3F00 : PpuAddr).toNat ∧
    [0x3F10, 0x3FE0, 0x3F11, 0x3FF1, 0x3F01].map paletteIndex = [0, 0, 0x11, 0x11, 1] ∧
    [Mirroring.horizontal, .vertical, .oneScreenLower, .oneScreenUpper, .fourScreen].map
      (fun m => [0x2ABC, 0x36BC].map (nametableIndex m)) =
      [[0x6BC, 0x2BC], [0x2BC, 0x6BC], [0x2BC, 0x2BC], [0x6BC, 0x6BC], [0xABC, 0x6BC]] := by decide
theorem witness_serial : Mmc1.powerOn.count = 0 ∧ (0x7F : Byte).getLsbD 7 = false ∧ (0x80 : Byte).getLsbD 7 = true := by
  decide
/-- ScanlineIrqCount: a reload pending, and a counter at zero without one; IRQs enabled and disabled; latches 0 and $FF. -/
theorem witness_irqCount : (withMapper 2 (.mmc3 { Mmc3.powerOn with irqReload := true, irqEnabled := true, irqLatch := 0xFF })
      State.reset).mapper.regs = .mmc3 { Mmc3.powerOn with irqReload := true, irqEnabled := true, irqLatch := 0xFF } ∧
    255 ≤ (0xFF : Byte).toNat ∧ 0 ≤ (0x00 : Byte).toNat ∧
    Mmc3.powerOn.irqCounter = 0 ∧ Mmc3.powerOn.irqReload = false ∧
    ({ Mmc3.powerOn with irqReload := true } : Mmc3).irqEnabled = false := by decide
/-- 62 R655: with latch 0 and no reload asked for, a call asserts the IRQ again after an acknowledge. -/
theorem test_mmc3_latch_zero : (onScanline { State.reset with mapper := { State.reset.mapper with
        regs := .mmc3 { Mmc3.powerOn with irqEnabled := true } } }).cpu.irqPending = true := by decide
/-- ImageLoads: an image that loads, with the smallest number of bytes. -/
theorem witness_image : imageWellFormed (image 1 0 0x10 0 16384) = true ∧
    imageMapperNumber (image 1 0 0x10 0 16384) = 1 ∧ loadError (image 1 0 0x10 0 16384) = none := by decide +kernel
/-- ImageLoads: an image with a trainer. -/
theorem witness_imageTrainer : imageWellFormed (image 1 0 0x14 0 16896) = true := by decide +kernel
/-- The two invariants hold at reset, and a step from reset answers a next state. -/
theorem witness_invariants : memoriesOk State.reset = true ∧ countersOk State.reset = true ∧
    (after (step State.reset) (fun s => memoriesOk s && countersOk s)) = some true := by decide +kernel
/-- The end of a run of 60 R451 is met by a machine at its loop. -/
theorem test_loop_end : atLoopEnd 0x8000 (machine [] awake) = true := by decide
/-- 60 R421: the state that a BRK at $8000 with vector $FFFF leaves (95_test_vectors.md: PC $8002, S $FA) is no end of a run;
without the fault on record it would be one. -/
theorem test_fault_no_end :
    ((faultOf (step (withRom [(0, 0x00), (0x3FFE, 0xFF), (0x3FFF, 0xFF)] awake))).bind Fault.after).map
      (fun s => (s.cpu.pc, s.cpu.s, atLoopEnd 0x8002 s, atLoopEnd 0x8002 { s with faults := [], stopped := false })) =
    some (0x8002, 0xFA, false, true) := by decide +kernel
/-- The interface's reset state is the model's. -/
theorem test_core_reset : Sys2Proof.core.reset = State.reset := rfl

end Sys2Proof.Tests
end

section
/-! Proofs of the memory statements (20_memory.md). -/

namespace Sys2Proof.Machine

/-- Settles O37: both accesses reach the RAM cell of their address modulo $0800, so the read sees a write to one cell. -/
theorem ramMirrors : Obligations.RamMirrors := by
  intro a c v s ha hc
  calc (busRead c (busWrite a v s)).1
    _ = ((s.setBusLatch v).setCell .ram (a.toNat % 0x800) v).cell .ram (c.toNat % 0x800) := by
      rw [busRead_of_ram _ c hc, busWrite_of_ram s a v ha]
    _ = if a.toNat % 0x800 = c.toNat % 0x800 then v else s.cell .ram (c.toNat % 0x800) := by
      simp only [State.cell_setCell, true_and, State.setBusLatch_cell]
    _ = if a.toNat % 0x800 = c.toNat % 0x800 then v else (busRead c s).1 := by
      rw [busRead_of_ram s c hc]

end Sys2Proof.Machine
end

section
/-! Proofs of the load, store and transfer statements (40_load_store_transfer.md), with the register increments and
decrements of 41_arithmetic_logic.md R232 to R235, which load a register in the same way. -/

namespace Sys2Proof.Machine

open Sys2Proof.Claims

variable (s : State)

/-- A register-only meaning that ends in `loadA v` writes A, N and Z to the processor, and the cost. -/
theorem finish_loadA (k : Nat) (v : Byte) : finish k (loadA v s) =
    .next { s with cpu := { setNZ v { s.cpu with a := v } with sleep := k - 1 } } := rfl

theorem finish_loadX (k : Nat) (v : Byte) : finish k (loadX v s) =
    .next { s with cpu := { setNZ v { s.cpu with x := v } with sleep := k - 1 } } := rfl

theorem finish_loadY (k : Nat) (v : Byte) : finish k (loadY v s) =
    .next { s with cpu := { setNZ v { s.cpu with y := v } with sleep := k - 1 } } := rfl

/-- Writing S leaves N and Z as they are (40 R211). -/
theorem finish_setS (k : Nat) (v : Byte) : finish k (s.setS v) =
    .next { s with cpu := { s.cpu with s := v, sleep := k - 1 } } := rfl

theorem cpuCompletes_append {o : Operand} {rows rows' : List CpuRow} :
    CpuCompletes s o (rows ++ rows') ↔ CpuCompletes s o rows ∧ CpuCompletes s o rows' :=
  List.forall_mem_append

/-- Each transfer loads its destination with its source, but TXS, which writes S alone (40 R206 to R211). -/
theorem transfersComplete : CpuCompletes s .imp (transferRows s.cpu) := by
  simp only [CpuCompletes, transferRows, List.forall_mem_cons]
  exact
    ⟨⟨rfl, rfl, finish_loadX s 2 s.cpu.a⟩, -- TAX
     ⟨rfl, rfl, finish_loadY s 2 s.cpu.a⟩, -- TAY
     ⟨rfl, rfl, finish_loadA s 2 s.cpu.x⟩, -- TXA
     ⟨rfl, rfl, finish_loadA s 2 s.cpu.y⟩, -- TYA
     ⟨rfl, rfl, finish_loadX s 2 s.cpu.s⟩, -- TSX
     ⟨rfl, rfl, finish_setS s 2 s.cpu.x⟩,  -- TXS
     List.forall_mem_nil _⟩

/-- Each increment or decrement loads its register with 1 more or less (41 R232 to R235). -/
theorem registerStepsComplete : CpuCompletes s .imp (stepRows s.cpu) := by
  simp only [CpuCompletes, stepRows, List.forall_mem_cons]
  exact
    ⟨⟨rfl, rfl, finish_loadX s 2 (s.cpu.x + 1)⟩, -- INX
     ⟨rfl, rfl, finish_loadY s 2 (s.cpu.y + 1)⟩, -- INY
     ⟨rfl, rfl, finish_loadX s 2 (s.cpu.x - 1)⟩, -- DEX
     ⟨rfl, rfl, finish_loadY s 2 (s.cpu.y - 1)⟩, -- DEY
     List.forall_mem_nil _⟩

end Sys2Proof.Machine

namespace Sys2Proof.Machine

/-- Settles O17: the ten instructions are the transfers and the register increments and decrements, each a register load
but for TXS. -/
theorem registerInstructionsComplete : Obligations.RegisterInstructionsComplete :=
  fun s => (cpuCompletes_append s).mpr ⟨transfersComplete s, registerStepsComplete s⟩

end Sys2Proof.Machine
end

section
/-! What a bus write stores and what it leaves alone, in the words of the completion statements (20_memory.md R81). -/

namespace Sys2Proof.Machine

open Sys2Proof.Claims

variable (s : State) (a : Word) (v : Byte)

/-- Below the PRG ROM a window is of internal RAM or of PRG-RAM (20_memory.md R75, R76, R79). -/
theorem busSelect_window_region {w : Window} (ha : a.toNat < 0x8000) (h : busSelect s a = .window w) :
    w.region = .ram ∨ w.region = .prgRam := by
  have hprg : ∀ c m, prgRamWindow c m = some w → w.region = .prgRam := by
    intro c m hw
    cases m <;> simp only [prgRamWindow] at hw <;> split at hw <;> cases hw <;> rfl
  unfold busSelect at h
  rw [if_neg (by omega)] at h
  split at h
  · split at h
    · rename_i w' hw'
      cases h
      exact .inr (hprg _ _ hw')
    · cases h
  · split at h
    · cases h; exact .inl rfl
    · split at h <;> cases h

/-- The decoder selects a PPU port in the port range alone (20_memory.md R78). -/
theorem isPort_of_busSelect {p : Nat} (h : busSelect s a = .port p) : isPort a = true := by
  unfold busSelect at h
  simp only [isPort, Bool.and_eq_true, decide_eq_true_eq]
  split at h
  · cases h
  · split at h
    · split at h <;> cases h
    · split at h
      · cases h
      · split at h
        · omega
        · cases h

theorem toNat_lt_of_isPort (h : isPort a = true) : a.toNat < 0x8000 := by
  simp only [isPort, Bool.and_eq_true, decide_eq_true_eq] at h
  omega

/-- A write through a window stores the byte, or drops it where the window is not writable (R72, R81). -/
theorem busWrite_of_window {w : Window} (ha : a.toNat < 0x8000) (h : busSelect s a = .window w) : busWrite a v s =
    if w.writable then (s.setBusLatch v).setCell w.region (w.cellIndex a.toNat) v else s.setBusLatch v := by
  have hs : busSelect (s.setBusLatch v) a = .window w := h
  simp only [busWrite, if_neg (Nat.not_le.mpr ha), hs]

theorem busWrite_of_port {p : Nat} (h : busSelect s a = .port p) :
    busWrite a v s = portWrite p v (s.setBusLatch v) := by
  have ha := toNat_lt_of_isPort a (isPort_of_busSelect s a h)
  have hs : busSelect (s.setBusLatch v) a = .port p := h
  simp only [busWrite, if_neg (Nat.not_le.mpr ha), hs]

theorem busWrite_of_openBus (ha : a.toNat < 0x8000) (h : busSelect s a = .openBus) :
    busWrite a v s = s.setBusLatch v := by
  have hs : busSelect (s.setBusLatch v) a = .openBus := h
  simp only [busWrite, if_neg (Nat.not_le.mpr ha), hs]

/-- A PPU bus write stores its byte where it selects a RAM, in the palette 6 bits of it (61_ppu.md R540 to R542). -/
theorem ppuWrite_stored (b : PpuAddr) {q : Region} {i : Nat} (h : ppuSelect s b = (q, i)) (hq : q ≠ .chrRom) :
    (ppuWrite s b v).cell q i = if q = .palette then v &&& 0x3F else v := by
  unfold ppuWrite
  rw [h]
  split
  · rename_i heq
    exact absurd (Prod.ext_iff.mp heq).1 hq
  · rename_i heq
    cases heq
    rw [State.cell_setCell_same, if_pos rfl]
  · rename_i hp heq
    cases heq
    rw [State.cell_setCell_same, if_neg hp]

/-- A port write stores its byte in the cell that `portCell` names: port 4 in OAM, port 7 over the PPU bus (61 R526, R531). -/
theorem portWrite_stored (p : Nat) {q : Region} {i : Nat} (h : portCell s p = some (q, i)) :
    (portWrite p v s).cell q i = if q = .palette then v &&& 0x3F else v := by
  unfold portCell at h
  split at h
  · cases h
    exact State.cell_setCell_same (s.setPpu _) .oam _ v
  · split at h
    · cases h
    · rename_i hrom hsel
      cases h
      exact (State.setPpu_cell _ _ q i rfl rfl rfl).trans
        (ppuWrite_stored (s.setPpu { s.ppu with ioLatch := v }) v s.ppu.busAddr hsel hrom)
  · cases h

/-- A bus write through a port stores in the port's cell. -/
theorem portCell_of_storedCell {p : Nat} {q : Region} {i : Nat} (h : busSelect s a = .port p)
    (hc : storedCell s a = some (q, i)) : portCell s p = some (q, i) := by
  have ha := toNat_lt_of_isPort a (isPort_of_busSelect s a h)
  simp only [storedCell, if_neg (Nat.not_le.mpr ha), h] at hc
  split at hc
  · cases ‹Target.port p = .window _›
  · cases ‹Target.port p = .port 4›
    exact hc
  · cases ‹Target.port p = .port 7›
    exact hc
  · cases hc
  · cases hc

/-- After a bus write the stored cell holds the byte written, a palette entry 6 bits of it. -/
theorem busWrite_storedCell {q : Region} {i : Nat} (h : storedCell s a = some (q, i)) :
    (busWrite a v s).cell q i = if q = .palette then v &&& 0x3F else v := by
  have ha : a.toNat < 0x8000 := by
    by_contra hge
    simp [storedCell, if_pos (Nat.not_lt.mp hge)] at h
  cases hs : busSelect s a with
  | window w =>
    have hr := busSelect_window_region s a ha hs
    simp only [storedCell, if_neg (Nat.not_le.mpr ha), hs] at h
    by_cases hw : w.writable = true
    · rw [if_pos hw] at h
      cases h
      rw [busWrite_of_window s a v ha hs, if_pos hw, State.cell_setCell_same, if_neg]
      rcases hr with hr | hr <;> rw [hr] <;> decide
    · simp [hw] at h
  | port p =>
    rw [busWrite_of_port s a v hs]
    exact portWrite_stored (s.setBusLatch v) v p (portCell_of_storedCell s a hs h)
  | openBus => simp [storedCell, hs] at h

theorem stored_busWrite : Stored s a v (busWrite a v s) :=
  ⟨fun _ _ => busWrite_storedCell s a v, fun q i => busWrite_cell s a v q i⟩

/-- Only a write to the ports reaches the PPU. -/
theorem busWrite_ppu (h : isPort a = false) : (busWrite a v s).ppu = s.ppu := by
  by_cases ha : a.toNat < 0x8000
  · cases hs : busSelect s a with
    | window w =>
      rw [busWrite_of_window s a v ha hs]
      split
      · rcases busSelect_window_region s a ha hs with hr | hr <;> rw [hr] <;> rfl
      · rfl
    | port p => simp [isPort_of_busSelect s a hs] at h
    | openBus => rw [busWrite_of_openBus s a v ha hs]; rfl
  · obtain ⟨regs, q, hm⟩ := mapperWrite_cases (s.setBusLatch v) a v
    have hw : busWrite a v s = mapperWrite a v (s.setBusLatch v) := if_pos (Nat.not_lt.mp ha)
    rw [hw, hm]
    rfl

/-- Of the processor a bus write reaches the two interrupt latches alone. -/
theorem busWrite_cpu : (busWrite a v s).cpu = { s.cpu with
    nmiPending := (busWrite a v s).cpu.nmiPending, irqPending := (busWrite a v s).cpu.irqPending } := by
  obtain ⟨base, _, _, _, _, _, _, _, _, _, _, _, hb, _, _, hw⟩ := busWrite_cases s a v
  rcases hb with rfl | ⟨_, _, _, _, _, _, _, rfl⟩ <;> simp [hw]

theorem writeFrame_busWrite : WriteFrame s a v (busWrite a v s) :=
  ⟨busWrite_busLatch s a v, busWrite_cpu s a v,
   fun h => ⟨busWrite_nmiPending s a v h, busWrite_ppu s a v h⟩, busWrite_irqPending s a v,
   busWrite_launch s a v, busWrite_hostRequest s a v, busWrite_shutdown s a v, busWrite_faults s a v,
   busWrite_stopped s a v⟩

end Sys2Proof.Machine
end

section
/-! What a bus read, an addressing mode and an operand read may change, in the words of the completion statements, and the
completion of the instructions made of one operand read, or of one read and one write. -/

namespace Sys2Proof.Machine

open Sys2Proof.Claims

section ReadOnly

variable {s t u : State}

theorem readOnly_refl (s : State) : ReadOnly s s := ⟨⟨s.ppu, s.busLatch, rfl⟩, fun _ _ => rfl⟩

theorem readOnly_trans (hst : ReadOnly s t) (htu : ReadOnly t u) : ReadOnly s u := by
  obtain ⟨⟨p, l, rfl⟩, hs⟩ := hst
  obtain ⟨⟨p', l', rfl⟩, ht⟩ := htu
  exact ⟨⟨p', l', rfl⟩, fun q i => (ht q i).trans (hs q i)⟩

theorem readOnly_busRead (s : State) (a : Word) : ReadOnly s (busRead a s).2 := by
  obtain ⟨vb, w, rb, v, io, bl, h⟩ := busRead_cases s a
  exact ⟨⟨_, bl, h⟩, busRead_cell s a⟩

theorem readOnly_locate (s : State) (a : Addr) : ReadOnly s (locate a s).st := by
  rcases locate_st s a with h | ⟨p, q, h⟩ <;> rw [h]
  · exact readOnly_refl s
  · exact readOnly_trans (readOnly_busRead s p) (readOnly_busRead _ q)

theorem readOnly_afterRead (s : State) (a : Addr) : ReadOnly s (afterRead a s) :=
  readOnly_trans (readOnly_locate s a) (readOnly_busRead _ _)

theorem readOnly_readSource (s : State) (src : Source) : ReadOnly s (readSource src s).st := by
  cases src with
  | acc => exact readOnly_refl s
  | imm b => exact readOnly_refl s
  | mem a => exact readOnly_afterRead s a

end ReadOnly

/-- `f` of an operand byte acts on the processor alone, as `effect` says. -/
def ActsOnCpu (f : Byte → State → State) (effect : Byte → Cpu → Cpu) : Prop :=
  ∀ m s, f m s = { s with cpu := effect m s.cpu }

/-- A row's instruction has the row's opcode and operand, and its meaning is the operand read followed by `f`. -/
structure ReadsBy (f : Byte → State → State) (r : ReadRow) : Prop where
  opcode : r.instr.opcode = r.op
  operand : r.instr.operand = .src r.src
  meaning : exec r.instr = execRead r.cost r.src f

/-- A row's instruction has the row's opcode and operand, and its meaning is `m` of the row's cost and address. -/
structure ModifiesBy (m : Nat → Addr → State → Outcome) (r : AddrRow) : Prop where
  opcode : r.instr.opcode = r.op
  operand : r.instr.operand = .src (.mem r.addr)
  meaning : exec r.instr = m r.cost r.addr

/-- The state after a read-modify-write of cost `c`: the one write, then the effect on the processor and the cost (20 R99). -/
def modified (result : Byte → Cpu → Byte) (effect : Byte → Cpu → Cpu) (c : Nat) (a : Addr) (s : State) : State :=
  let t := busWrite (locate a s).ea (result (operandAt a s) s.cpu) (afterRead a s)
  { t with cpu := { effect (operandAt a s) t.cpu with sleep := c - 1 } }

/-- An operand read leaves the processor to the effect, which then adds the cost and the page-cross cycle (30 R171). -/
theorem execRead_eq {f : Byte → State → State} {effect : Byte → Cpu → Cpu} (hf : ActsOnCpu f effect) (c : Nat)
    (src : Source) (s : State) : execRead c src f s = .next { (readSource src s).st with
      cpu := { effect (readSource src s).value s.cpu with
        sleep := c + (if (readSource src s).crossed then 1 else 0) - 1 } } := by
  unfold execRead
  dsimp only
  rw [hf, readSource_cpu]
  rfl

theorem readsComplete_of_readsBy {rows : Byte → Word → List ReadRow} {f : Byte → State → State}
    {effect : Byte → Cpu → Cpu} (hf : ActsOnCpu f effect) (hrows : ∀ b w, ∀ r ∈ rows b w, ReadsBy f r) :
    ReadsComplete rows effect := by
  intro b w s r hr
  obtain ⟨hop, hsrc, hexec⟩ := hrows b w r hr
  exact ⟨hop, hsrc, readOnly_readSource s r.src, hexec ▸ execRead_eq hf r.cost r.src s⟩

/-- A read-modify-write completes where its meaning is `modified`: what its read and its write change is the bus's own. -/
theorem modifiesComplete_of_modifiesBy {rows : Byte → Word → List AddrRow} {m : Nat → Addr → State → Outcome}
    {result : Byte → Cpu → Byte} {effect : Byte → Cpu → Cpu}
    (hm : ∀ c a s, m c a s = .next (modified result effect c a s)) (hrows : ∀ b w, ∀ r ∈ rows b w, ModifiesBy m r) :
    ModifiesComplete rows result effect := by
  intro b w s r hr
  obtain ⟨hop, haddr, hexec⟩ := hrows b w r hr
  exact ⟨hop, haddr, readOnly_afterRead s r.addr, stored_busWrite _ _ _, writeFrame_busWrite _ _ _,
    hexec ▸ hm r.cost r.addr s⟩

end Sys2Proof.Machine
end

section
/-! Proofs of the arithmetic and logic statements (41_arithmetic_logic.md). -/

namespace Sys2Proof.Machine

open Sys2Proof.Claims

theorem addSum_lt (a m : Byte) (c : Bool) : addSum a m c < 0x200 := by
  have ha := a.isLt
  have hm := m.isLt
  have hc : carryNat c ≤ 1 := by cases c <;> decide
  unfold addSum
  omega

/-- Bit 8 of the sum says that the sum is past a byte (41 R221). -/
theorem addCarry_eq (a m : Byte) (c : Bool) : addCarry a m c = decide (256 ≤ addSum a m c) := by
  have h := addSum_lt a m c
  rw [addCarry, Nat.testBit_eq_decide_div_mod_eq]
  exact decide_eq_decide.mpr (by omega)

theorem adc_actsOnCpu : ActsOnCpu adc adcEffect := by
  intro m s
  unfold adc
  dsimp only
  rw [addCarry_eq]
  rfl

/-- The three logic instructions load A (41 R223 to R225). -/
theorem loadA_eq (v : Byte) (s : State) : loadA v s = { s with cpu := setNZ v { s.cpu with a := v } } := rfl

/-- Z of the difference says that the operands are equal (41 R226). -/
theorem compare_eq (r m : Byte) (s : State) : compare r m s = { s with cpu := compareEffect r m s.cpu } := by
  have hz : (r - m == 0) = decide (r = m) := by
    rw [beq_eq_decide]
    exact decide_eq_decide.mpr sub_eq_zero
  unfold compare State.setNZ
  rw [hz]
  rfl

/-- INC and DEC write `f` of the byte read, then set N and Z by it (41 R230, R231). -/
theorem execIncDec_eq (f : Byte → Byte) (c : Nat) (a : Addr) (s : State) :
    execIncDec c a f s = .next (modified (fun v _ => f v) (fun v => setNZ (f v)) c a s) := rfl

/-! Each row of the opcode table is its arm of `exec`, a call of the shared meaning (30_encoding.md R161, R170). -/

section Rows

variable (b : Byte) (w : Word)

theorem adcRows_readsBy : ∀ r ∈ adcRows b w, ReadsBy adc r := by
  intro r hr
  fin_cases hr <;> exact ⟨rfl, rfl, rfl⟩

theorem andRows_readsBy : ∀ r ∈ andRows b w, ReadsBy andA r := by
  intro r hr
  fin_cases hr <;> exact ⟨rfl, rfl, rfl⟩

theorem oraRows_readsBy : ∀ r ∈ oraRows b w, ReadsBy oraA r := by
  intro r hr
  fin_cases hr <;> exact ⟨rfl, rfl, rfl⟩

theorem eorRows_readsBy : ∀ r ∈ eorRows b w, ReadsBy eorA r := by
  intro r hr
  fin_cases hr <;> exact ⟨rfl, rfl, rfl⟩

theorem cmpRows_readsBy : ∀ r ∈ cmpRows b w, ReadsBy (fun m s => compare s.cpu.a m s) r := by
  intro r hr
  fin_cases hr <;> exact ⟨rfl, rfl, rfl⟩

theorem cpxRows_readsBy : ∀ r ∈ cpxRows b w, ReadsBy (fun m s => compare s.cpu.x m s) r := by
  intro r hr
  fin_cases hr <;> exact ⟨rfl, rfl, rfl⟩

theorem cpyRows_readsBy : ∀ r ∈ cpyRows b w, ReadsBy (fun m s => compare s.cpu.y m s) r := by
  intro r hr
  fin_cases hr <;> exact ⟨rfl, rfl, rfl⟩

theorem incRows_modifiesBy : ∀ r ∈ incRows b w, ModifiesBy (fun c a => execIncDec c a (· + 1)) r := by
  intro r hr
  fin_cases hr <;> exact ⟨rfl, rfl, rfl⟩

theorem decRows_modifiesBy : ∀ r ∈ decRows b w, ModifiesBy (fun c a => execIncDec c a (· - 1)) r := by
  intro r hr
  fin_cases hr <;> exact ⟨rfl, rfl, rfl⟩

end Rows

end Sys2Proof.Machine

namespace Sys2Proof.Machine

/-- Settles O18: every form reads its operand and adds; bit 8 of the sum is the statement's comparison with 256. -/
theorem adcCompletes : Obligations.AdcCompletes :=
  readsComplete_of_readsBy adc_actsOnCpu adcRows_readsBy

/-- Settles O20: every form reads its operand and loads A with the bitwise result. -/
theorem logicCompletes : Obligations.LogicCompletes :=
  ⟨readsComplete_of_readsBy (fun m s => loadA_eq (s.cpu.a &&& m) s) andRows_readsBy,
   readsComplete_of_readsBy (fun m s => loadA_eq (s.cpu.a ||| m) s) oraRows_readsBy,
   readsComplete_of_readsBy (fun m s => loadA_eq (s.cpu.a ^^^ m) s) eorRows_readsBy⟩

/-- Settles O21: every form reads its operand and compares its register with it. -/
theorem comparesComplete : Obligations.ComparesComplete :=
  ⟨readsComplete_of_readsBy (fun m s => compare_eq s.cpu.a m s) cmpRows_readsBy,
   readsComplete_of_readsBy (fun m s => compare_eq s.cpu.x m s) cpxRows_readsBy,
   readsComplete_of_readsBy (fun m s => compare_eq s.cpu.y m s) cpyRows_readsBy⟩

/-- Settles O23: every form is one read and one write at its effective address, then N and Z of the byte written. -/
theorem incDecMemoryCompletes : Obligations.IncDecMemoryCompletes :=
  ⟨modifiesComplete_of_modifiesBy (execIncDec_eq _) incRows_modifiesBy,
   modifiesComplete_of_modifiesBy (execIncDec_eq _) decRows_modifiesBy⟩

end Sys2Proof.Machine
end

section
/-! Proofs of the control transfer statements (44_control_transfer.md). -/

namespace Sys2Proof.Machine

open Sys2Proof.Claims

/-- The page of an address is its high byte over a zero byte (30_encoding.md R150). -/
theorem and_pageMask (w : Word) : w &&& 0xFF00 = mkWord (hiByte w) 0 := by
  calc w &&& 0xFF00
    _ = mkWord (hiByte w) (loByte w) &&& mkWord (BitVec.allOnes 8) 0 := by rw [mkWord_hiByte_loByte]; rfl
    _ = mkWord (hiByte w &&& BitVec.allOnes 8) (loByte w &&& 0) := BitVec.and_append
    _ = mkWord (hiByte w) 0 := congrArg₂ mkWord BitVec.and_allOnes BitVec.and_zero

/-- The model compares high bytes where the spec compares masked addresses (30_encoding.md R150). -/
theorem pageCrossed_eq (a b : Word) : pageCrossed a b = decide (a &&& 0xFF00 ≠ b &&& 0xFF00) := by
  have hpage : hiByte a = hiByte b ↔ a &&& 0xFF00 = b &&& 0xFF00 := by
    rw [and_pageMask, and_pageMask]
    exact ⟨fun h => by rw [h], fun h => by simpa using congrArg hiByte h⟩
  rw [pageCrossed, bne, beq_eq_decide, decide_eq_decide.mpr hpage, decide_not]

/-- The table of 30_encoding.md R172 is the sum of 44_control_transfer.md R273. -/
theorem branchCost_eq (taken crossed : Bool) :
    branchCost taken crossed = 2 + (if taken then 1 else 0) + (if taken && crossed then 1 else 0) := by
  cases taken <;> cases crossed <;> rfl

/-- A branch writes PC and the cost, and nothing else (44_control_transfer.md R273). -/
theorem execBranch_eq (taken : Bool) (d : Byte) (s : State) :
    let next := s.cpu.pc
    let target := next + d.signExtend 16
    let crossed := decide (next &&& 0xFF00 ≠ target &&& 0xFF00)
    execBranch taken d s = .next { s with cpu := { s.cpu with
      pc := if taken then target else next
      sleep := 2 + (if taken then 1 else 0) + (if taken && crossed then 1 else 0) - 1 } } := by
  intro next target crossed
  calc execBranch taken d s
    _ = finish (branchCost taken (pageCrossed next target)) (s.setPc (if taken then target else next)) := rfl
    _ = finish (2 + (if taken then 1 else 0) + (if taken && crossed then 1 else 0))
          (s.setPc (if taken then target else next)) := by rw [branchCost_eq, pageCrossed_eq]

/-- Each row of the branch table is its arm of `exec`, a call of the shared meaning (44_control_transfer.md R274 to
R281). -/
theorem branchRows_execBranch (d : Byte) (s : State) : ∀ r ∈ branchRows d s.cpu,
    r.instr.opcode = r.op ∧ r.instr.operand = .rel d ∧ exec r.instr s = execBranch r.taken d s := by
  intro r hr
  fin_cases hr <;> exact ⟨rfl, rfl, rfl⟩

/-- Settles O30: every row is `execBranch` under its condition, whose page test and cost are the statement's. -/
theorem branchesComplete : Obligations.BranchesComplete := by
  intro d s r hr
  obtain ⟨hop, hoperand, hexec⟩ := branchRows_execBranch d s r hr
  exact ⟨hop, hoperand, hexec.trans (execBranch_eq r.taken d s)⟩

end Sys2Proof.Machine
end

section
/-! Proofs of the flag instruction statements (45_flags_system.md). -/

namespace Sys2Proof.Machine

open Sys2Proof.Claims

/-- A meaning that has written the processor alone ends with the sleep counter written there too (60_exceptions.md R402). -/
theorem finish_withCpu (k : Nat) (c : Cpu) (s : State) :
    finish k { s with cpu := c } = .next { s with cpu := { c with sleep := k - 1 } } := rfl

/-- Each flag instruction ends after its one flag's write, and NOP after none (45_flags_system.md R290 to R297). -/
theorem flagRows_finish (s : State) : ∀ r ∈ flagRows s.cpu,
    r.instr.opcode = r.op ∧ r.instr.operand = .imp ∧ exec r.instr s = finish r.cost { s with cpu := r.cpu } := by
  intro r hr
  fin_cases hr <;> exact ⟨rfl, rfl, rfl⟩

/-- Settles O31: every row is a write of the processor alone, then its cost. -/
theorem flagInstructionsComplete : Obligations.FlagInstructionsComplete := by
  intro s r hr
  obtain ⟨hop, hoperand, hexec⟩ := flagRows_finish s r hr
  exact ⟨hop, hoperand, hexec.trans (finish_withCpu r.cost r.cpu s)⟩

end Sys2Proof.Machine
end

section
/-! Proofs of the processor step statements (60_exceptions.md). -/

namespace Sys2Proof.Machine

/-- The sleep test stands before both latch tests and the fetch, so a sleeping step is its own arm (60_exceptions.md R401). -/
theorem cpuStep_of_sleeping {s : State} (hsleep : 0 < s.cpu.sleep) :
    cpuStep s = .next (s.setSleep (s.cpu.sleep - 1)) :=
  if_pos hsleep

/-- Settles O7: the sleeping arm writes the sleep counter alone. -/
theorem sleepingStepOnlyCounts : Obligations.SleepingStepOnlyCounts := by
  intro s hsleep
  exact cpuStep_of_sleeping hsleep

end Sys2Proof.Machine
end

section
/-! Proofs of the cartridge and mapper statements (62_mappers_cartridge.md). -/

namespace Sys2Proof.Machine

/-- A read of $8000-$FFFF answers the PRG ROM byte that the current PRG window selects (20_memory.md R71, R79, R80). -/
theorem busRead_of_prgWindow {a : Word} (s : State) (ha : 0x8000 ≤ a.toNat) : (busRead a s).1 =
    s.cell .prgRom ((prgWindow s.launch.cart s.mapper.regs a).cellIndex a.toNat) := by
  have hregion : (prgWindow s.launch.cart s.mapper.regs a).region = .prgRom := by unfold prgWindow; split <;> rfl
  have hs : busSelect s a = .window (prgWindow s.launch.cart s.mapper.regs a) := if_pos ha
  simp only [busRead, hs, hregion]

/-- A window based at the multiple of its bank's size below an address selects the bank's byte at the address modulo that
size (20_memory.md R71). -/
theorem cellIndex_of_bankWindow (r : Region) (offset size a : Nat) (w : Bool) :
    (Window.mk r offset (a / size * size) w 0).cellIndex a = offset + a % size :=
  congrArg (offset + ·) Nat.mod_eq_sub_div_mul.symm

/-- The bank that the fixed-bank variant maps at $C000-$FFFF is in range, or 0 (R605, R620). -/
theorem lastBank_mod (pages : Nat) :
    (if 2 ≤ pages then pages - 1 else 0) % pages = if 2 ≤ pages then pages - 1 else 0 := by
  split
  · exact Nat.mod_eq_of_lt (by omega)
  · exact Nat.zero_mod pages

/-- Both banks of the fixed-bank variant are their own remainders, so that its windows start where R620 says. -/
theorem prgWindow_nrom_cellIndex (c : Cartridge) (a : Word) :
    let bank := if a.toNat < 0xC000 then 0 else if 2 ≤ c.prgPages then c.prgPages - 1 else 0
    (prgWindow c .nrom a).cellIndex a.toNat = bank * 0x4000 + a.toNat % 0x4000 := by
  intro bank
  have hbank : bank % c.prgPages = bank := by
    by_cases hlow : a.toNat < 0xC000
    · simp only [bank, if_pos hlow, Nat.zero_mod]
    · simp only [bank, if_neg hlow, lastBank_mod]
  calc (prgWindow c .nrom a).cellIndex a.toNat
    _ = bank % c.prgPages * 0x4000 + a.toNat % 0x4000 := cellIndex_of_bankWindow ..
    _ = bank * 0x4000 + a.toNat % 0x4000 := by rw [hbank]

/-- Settles O52: the read goes through the fixed-bank window of its address. -/
theorem fixedBankWindows : Obligations.FixedBankWindows := by
  intro a s hregs ha
  rw [busRead_of_prgWindow s ha, hregs]
  exact congrArg (s.cell .prgRom) (prgWindow_nrom_cellIndex s.launch.cart a)

end Sys2Proof.Machine
end

section
/-! Proofs of the encoding statements (30_encoding.md): a form filled with operand bytes is an instruction, decoding fills
the form of the opcode byte, and every instruction is the fill of its opcode's form. -/

namespace Sys2Proof

open Sys2Proof.Machine Sys2Proof.Claims

/-- The instruction that a form makes of exactly these operand bytes (R131). -/
def Form.fill : Form → List Byte → Option Instr
  | .f1 i, [] => some i
  | .f2 k, [b] => some (k b)
  | .f3 k, [lo, hi] => some (k (mkWord hi lo))
  | _, _ => none

/-- Decoding is filling the opcode's form with the operand bytes that stand before the rest (R130, R131). -/
theorem decode_eq_ok_iff {bs : List Byte} {i : Instr} {rest : List Byte} : decode bs = .ok (i, rest) ↔
    ∃ op f bytes, bs = op :: bytes ++ rest ∧ formOf op = some f ∧ f.fill bytes = some i := by
  constructor
  · intro h
    unfold decode at h
    split at h
    · cases h
    · rename_i op tail
      split at h
      · cases h
      · rename_i j hf
        cases h
        exact ⟨op, .f1 i, [], rfl, hf, rfl⟩
      · rename_i k hf
        split at h <;> cases h
        exact ⟨op, .f2 k, [_], rfl, hf, rfl⟩
      · rename_i k hf
        split at h <;> cases h
        exact ⟨op, .f3 k, [_, _], rfl, hf, rfl⟩
  · rintro ⟨op, f, bytes, rfl, hf, hfill⟩
    unfold Form.fill at hfill
    split at hfill <;> cases hfill <;> simp only [decode, List.cons_append, List.nil_append, hf]

theorem decode_eq_unregistered {op : Byte} (rest : List Byte) (h : formOf op = none) :
    decode (op :: rest) = .error (.unregistered op) := by
  simp only [decode, h]

/-- Every instruction is the fill of its opcode's form with its operand bytes (R161, R170). -/
theorem fill_operand_bytes (i : Instr) : ∃ f, formOf i.opcode = some f ∧ f.fill i.operand.bytes = some i := by
  cases i <;> dsimp only [Instr.opcode, Instr.operand, Operand.bytes, Addr.bytes] <;> refine ⟨_, rfl, ?_⟩ <;>
    simp only [Form.fill, mkWord_hiByte_loByte]

/-- Every filling of a form has opcode byte `op` and the operand bytes it was filled with. -/
def Form.Encodes (op : Byte) : Form → Prop
  | .f1 i => i.opcode = op ∧ i.operand.bytes = []
  | .f2 k => ∀ b, (k b).opcode = op ∧ (k b).operand.bytes = [b]
  | .f3 k => ∀ w, (k w).opcode = op ∧ (k w).operand.bytes = [loByte w, hiByte w]

/-- The forms of a row of the opcode map encode the opcodes from `n` on, in order. -/
def RowEncodes : Nat → List (Option Form) → Prop
  | _, [] => True
  | n, none :: row => RowEncodes (n + 1) row
  | n, some f :: row => f.Encodes (BitVec.ofNat 8 n) ∧ RowEncodes (n + 1) row

theorem RowEncodes.getD {n : Nat} {row : List (Option Form)} (h : RowEncodes n row) {c : Nat} {f : Form}
    (hf : row.getD c none = some f) : f.Encodes (BitVec.ofNat 8 (n + c)) := by
  induction row generalizing n c with
  | nil => simp at hf
  | cons e row ih =>
    cases c with
    | zero =>
      obtain rfl : e = some f := hf
      exact h.1
    | succ c =>
      have hrow : RowEncodes (n + 1) row := by
        cases e with
        | none => exact h
        | some g => exact h.2
      rw [show n + (c + 1) = n + 1 + c by omega]
      exact ih hrow hf

/-- The 16 rows of the map of R161, each against the encoder's opcode column (R170). -/
theorem opcodeMap_encodes {r : Nat} (hr : r < 16) : RowEncodes (16 * r) (opcodeMap.getD r []) := by
  interval_cases r <;>
    simp [opcodeMap, mapRow0, mapRow1, mapRow2, mapRow3, mapRow4, mapRow5, mapRow6, mapRow7, mapRow8, mapRow9, mapRowA,
      mapRowB, mapRowC, mapRowD, mapRowE, mapRowF, RowEncodes, Form.Encodes, Instr.opcode, Instr.operand, Operand.bytes,
      Addr.bytes]

theorem formOf_encodes {op : Byte} {f : Form} (h : formOf op = some f) : f.Encodes op := by
  have hop : 16 * (op.toNat / 16) + op.toNat % 16 = op.toNat := Nat.div_add_mod _ _
  have henc := (opcodeMap_encodes (show op.toNat / 16 < 16 by have := op.isLt; omega)).getD h
  rwa [hop, BitVec.ofNat_toNat, BitVec.setWidth_eq] at henc

theorem Form.Encodes.of_fill {op : Byte} {f : Form} {bytes : List Byte} {i : Instr} (h : f.Encodes op)
    (hfill : f.fill bytes = some i) : i.opcode = op ∧ i.operand.bytes = bytes := by
  unfold Form.fill at hfill
  split at hfill <;> cases hfill
  · exact h
  · exact h _
  · rename_i k lo hi
    obtain ⟨hop, hbytes⟩ := h (mkWord hi lo)
    exact ⟨hop, by rw [hbytes, loByte_mkWord, hiByte_mkWord]⟩

/-- The mode fixes the length: the opcode byte and the operand bytes (R130). -/
theorem length_operand_bytes (o : Operand) : o.bytes.length + 1 = o.mode.length := by
  cases o with
  | imp => rfl
  | rel d => rfl
  | src s =>
    cases s with
    | acc => rfl
    | imm b => rfl
    | mem a => cases a <;> rfl

/-- The bytes without a form are the list of R162. -/
theorem formOf_isNone (op : Byte) : (formOf op).isNone = decide (op ∈ unregisteredOpcodes) := by
  revert op
  decide +kernel

theorem formOf_eq_none_iff {op : Byte} : formOf op = none ↔ op ∈ unregisteredOpcodes := by
  rw [← Option.isNone_iff_eq_none, formOf_isNone, decide_eq_true_iff]

/-- Any two bytes after the opcode fill its form. -/
theorem Form.fill_isSome (f : Form) (b1 b2 : Byte) : ∃ bytes rest i, [b1, b2] = bytes ++ rest ∧ f.fill bytes = some i := by
  cases f with
  | f1 i => exact ⟨[], [b1, b2], i, rfl, rfl⟩
  | f2 k => exact ⟨[b1], [b2], k b1, rfl, rfl⟩
  | f3 k => exact ⟨[b1, b2], [], k (mkWord b2 b1), rfl, rfl⟩

/-- Settles O1: the opcode's form, filled with the operand bytes, is the instruction. -/
theorem decodeEncodeAgree : Obligations.DecodeEncodeAgree := by
  intro i rest _
  obtain ⟨f, hf, hfill⟩ := fill_operand_bytes i
  exact decode_eq_ok_iff.mpr ⟨i.opcode, f, i.operand.bytes, rfl, hf, hfill⟩

/-- Settles O2: what decoding fills has the opcode and the operand bytes it was filled with. -/
theorem encodeDecodeAgree : Obligations.EncodeDecodeAgree := by
  intro bs i rest h
  obtain ⟨op, f, bytes, rfl, hf, hfill⟩ := decode_eq_ok_iff.mp h
  obtain ⟨hop, hbytes⟩ := (formOf_encodes hf).of_fill hfill
  refine ⟨by rw [encode, hop, hbytes], ?_⟩
  rw [← length_operand_bytes, hbytes, List.length_append, List.length_cons, Nat.add_comm]

/-- Settles O4: the listed bytes have no form, and every other byte's form is filled by the two bytes after it. -/
theorem unregisteredOpcodesRefused : Obligations.UnregisteredOpcodesRefused := by
  refine ⟨rfl, fun op b1 b2 => ⟨fun h => decode_eq_unregistered _ (formOf_eq_none_iff.mpr h), fun h => ?_⟩⟩
  obtain ⟨f, hf⟩ := Option.ne_none_iff_exists'.mp (mt formOf_eq_none_iff.mp h)
  obtain ⟨bytes, rest, i, hsplit, hfill⟩ := f.fill_isSome b1 b2
  exact ⟨i, rest, decode_eq_ok_iff.mpr ⟨op, f, bytes, by rw [hsplit]; rfl, hf, hfill⟩,
    ((formOf_encodes hf).of_fill hfill).1⟩

/-- Settles O3: each example's opcode byte has a form, filled with the bytes written out. -/
theorem specWordsDecode : Obligations.SpecWordsDecode :=
  ⟨rfl, rfl, rfl, rfl, rfl, rfl, rfl, rfl, rfl, rfl, rfl, rfl, rfl⟩

end Sys2Proof
end

section
/-! Proofs of the load and store statements (40_load_store_transfer.md R200 to R205). -/

namespace Sys2Proof.Machine

open Sys2Proof.Claims

section Rows

variable (b : Byte) (w : Word)

theorem ldaRows_readsBy : ∀ r ∈ ldaRows b w, ReadsBy loadA r := by
  intro r hr
  fin_cases hr <;> exact ⟨rfl, rfl, rfl⟩

theorem ldxRows_readsBy : ∀ r ∈ ldxRows b w, ReadsBy loadX r := by
  intro r hr
  fin_cases hr <;> exact ⟨rfl, rfl, rfl⟩

theorem ldyRows_readsBy : ∀ r ∈ ldyRows b w, ReadsBy loadY r := by
  intro r hr
  fin_cases hr <;> exact ⟨rfl, rfl, rfl⟩

/-- A row's instruction has the row's opcode and operand, and its meaning is one write of the register `reg` (R203 to R205). -/
structure StoresBy (reg : Cpu → Byte) (r : AddrRow) : Prop where
  opcode : r.instr.opcode = r.op
  operand : r.instr.operand = .src (.mem r.addr)
  meaning : ∀ s, exec r.instr s = execStore r.cost r.addr (reg s.cpu) s

theorem staRows_storesBy : ∀ r ∈ staRows b w, StoresBy Cpu.a r := by
  intro r hr
  fin_cases hr <;> exact ⟨rfl, rfl, fun _ => rfl⟩

theorem stxRows_storesBy : ∀ r ∈ stxRows b w, StoresBy Cpu.x r := by
  intro r hr
  fin_cases hr <;> exact ⟨rfl, rfl, fun _ => rfl⟩

theorem styRows_storesBy : ∀ r ∈ styRows b w, StoresBy Cpu.y r := by
  intro r hr
  fin_cases hr <;> exact ⟨rfl, rfl, fun _ => rfl⟩

/-- Each store row of StoresComplete, paired with the byte of its register. -/
theorem storeRows_storesBy (c : Cpu) {r : AddrRow × Byte}
    (hr : r ∈ (staRows b w).map (·, c.a) ++ (stxRows b w).map (·, c.x) ++ (styRows b w).map (·, c.y)) :
    ∃ reg, r.2 = reg c ∧ StoresBy reg r.1 := by
  simp only [List.mem_append, List.mem_map] at hr
  obtain (⟨r, hr, rfl⟩ | ⟨r, hr, rfl⟩) | ⟨r, hr, rfl⟩ := hr
  · exact ⟨Cpu.a, rfl, staRows_storesBy b w r hr⟩
  · exact ⟨Cpu.x, rfl, stxRows_storesBy b w r hr⟩
  · exact ⟨Cpu.y, rfl, styRows_storesBy b w r hr⟩

end Rows

/-- Settles O15: every form reads its operand and loads its register with it. -/
theorem loadsComplete : Obligations.LoadsComplete :=
  ⟨readsComplete_of_readsBy (fun _ _ => rfl) ldaRows_readsBy,
   readsComplete_of_readsBy (fun _ _ => rfl) ldxRows_readsBy,
   readsComplete_of_readsBy (fun _ _ => rfl) ldyRows_readsBy⟩

/-- Settles O16: every form is the one write of its register at its effective address, and what that write changes is the
bus's own. -/
theorem storesComplete : Obligations.StoresComplete := by
  intro b w s r hr
  obtain ⟨reg, hreg, hop, haddr, hexec⟩ := storeRows_storesBy b w s.cpu hr
  exact ⟨hop, haddr, readOnly_locate s _, stored_busWrite _ _ _, writeFrame_busWrite _ _ _, locate_cpu s _,
    (hexec s).trans (by rw [← hreg]; rfl)⟩

end Sys2Proof.Machine
end

section
/-! Proofs of the subtraction and bit test statements (41_arithmetic_logic.md R222, R229). -/

namespace Sys2Proof.Machine

open Sys2Proof.Claims

theorem toNat_complement (m : Byte) : (m ^^^ 0xFF).toNat = 255 - m.toNat := by
  rw [show m ^^^ 0xFF = ~~~m from BitVec.xor_allOnes, BitVec.toNat_not]

/-- Adding the complement and the carry is subtracting the operand and the borrow (R222). -/
theorem addResult_complement (a m : Byte) (c : Bool) :
    addResult a (m ^^^ 0xFF) c = a - m - (if c then 0 else 1) := by
  apply BitVec.eq_of_toNat_eq
  have ha := a.isLt
  have hm := m.isLt
  simp only [addResult, addSum, carryNat, toNat_complement, BitVec.toNat_ofNat, BitVec.toNat_sub]
  cases c <;> simp <;> omega

/-- The carry of that sum says that there was no borrow. -/
theorem carry_complement (a m : Byte) (c : Bool) :
    256 ≤ a.toNat + (m ^^^ 0xFF).toNat + (if c then 1 else 0) ↔ m.toNat + (if c then 0 else 1) ≤ a.toNat := by
  have hm := m.isLt
  rw [toNat_complement]
  cases c <;> simp <;> omega

/-- Overflow of that sum is the signed overflow of the subtraction: where the result's sign differs from A's, A's differs from
the complement's exactly where it does not from the operand's. -/
theorem overflow_complement (a m r : Byte) :
    (r ^^^ a) &&& (r ^^^ (m ^^^ 0xFF)) &&& 0x80 = (a ^^^ m) &&& (a ^^^ r) &&& 0x80 := by
  have hbit : ∀ x y z : Bool, ((z ^^ x) && (z ^^ !y)) = ((x ^^ y) && (x ^^ z)) := by decide
  congr 1
  rw [show m ^^^ 0xFF = ~~~m from BitVec.xor_allOnes]
  apply BitVec.eq_of_getLsbD_eq
  intro i hi
  simp only [BitVec.getLsbD_and, BitVec.getLsbD_xor, BitVec.getLsbD_not, hi, decide_true, Bool.true_and]
  exact hbit _ _ _

theorem sbc_actsOnCpu : ActsOnCpu sbc sbcEffect := by
  intro m s
  have heff : adcEffect (m ^^^ 0xFF) s.cpu = sbcEffect m s.cpu := by
    have hr := addResult_complement s.cpu.a m s.cpu.c
    simp only [addResult, addSum, carryNat] at hr
    simp only [adcEffect, sbcEffect, hr, carry_complement, overflow_complement]
  rw [sbc, adc_actsOnCpu, heff]

theorem bitTest_actsOnCpu : ActsOnCpu bitTest
    (fun m c => { c with z := decide (c.a &&& m = 0), n := m.getLsbD 7, v := m.getLsbD 6 }) := by
  intro m s
  rw [bitTest, beq_eq_decide]
  rfl

theorem sbcRows_readsBy (b : Byte) (w : Word) : ∀ r ∈ sbcRows b w, ReadsBy sbc r := by
  intro r hr
  fin_cases hr <;> exact ⟨rfl, rfl, rfl⟩

theorem bitRows_readsBy (b : Byte) (w : Word) : ∀ r ∈ bitRows b w, ReadsBy bitTest r := by
  intro r hr
  fin_cases hr <;> exact ⟨rfl, rfl, rfl⟩

/-- Settles O19: every form reads its operand and adds its complement, which is R222's second form. -/
theorem sbcCompletes : Obligations.SbcCompletes :=
  readsComplete_of_readsBy sbc_actsOnCpu sbcRows_readsBy

/-- Settles O22: both forms read their operand and test it against A. -/
theorem bitCompletes : Obligations.BitCompletes :=
  readsComplete_of_readsBy bitTest_actsOnCpu bitRows_readsBy

end Sys2Proof.Machine
end

section
/-! Proofs of the shift and rotate statements (42_shift_rotate.md R250 to R253). -/

namespace Sys2Proof.Machine

open Sys2Proof.Claims

/-- A memory shift writes the shifted byte, then sets C, N and Z by the byte read and the carry before it. -/
theorem execShiftMem_eq (f : Byte → Bool → Shifted) (c : Nat) (a : Addr) (s : State) : execShiftMem c a f s =
    .next (modified (fun v k => (f v k.c).result)
      (fun v k => setNZ (f v k.c).result { k with c := (f v k.c).carry }) c a s) := by
  simp only [execShiftMem, modified, operandAt, afterRead, busWrite_cpu_c, busRead_cpu, locate_cpu]
  rfl

section Rows

variable (b : Byte) (w : Word)

theorem aslRows_modifiesBy : ∀ r ∈ aslRows b w, ModifiesBy (fun c a => execShiftMem c a aslOf) r := by
  intro r hr
  fin_cases hr <;> exact ⟨rfl, rfl, rfl⟩

theorem lsrRows_modifiesBy : ∀ r ∈ lsrRows b w, ModifiesBy (fun c a => execShiftMem c a lsrOf) r := by
  intro r hr
  fin_cases hr <;> exact ⟨rfl, rfl, rfl⟩

theorem rolRows_modifiesBy : ∀ r ∈ rolRows b w, ModifiesBy (fun c a => execShiftMem c a rolOf) r := by
  intro r hr
  fin_cases hr <;> exact ⟨rfl, rfl, rfl⟩

theorem rorRows_modifiesBy : ∀ r ∈ rorRows b w, ModifiesBy (fun c a => execShiftMem c a rorOf) r := by
  intro r hr
  fin_cases hr <;> exact ⟨rfl, rfl, rfl⟩

end Rows

/-- Settles O25: every form is one read, one write of the shifted byte, then C, N and Z. -/
theorem memoryShiftsComplete : Obligations.MemoryShiftsComplete :=
  ⟨modifiesComplete_of_modifiesBy (execShiftMem_eq aslOf) aslRows_modifiesBy,
   modifiesComplete_of_modifiesBy (execShiftMem_eq lsrOf) lsrRows_modifiesBy,
   modifiesComplete_of_modifiesBy (execShiftMem_eq rolOf) rolRows_modifiesBy,
   modifiesComplete_of_modifiesBy (execShiftMem_eq rorOf) rorRows_modifiesBy⟩

/-- A shift of the accumulator writes A, C, N and Z. -/
theorem execShiftAcc_eq (f : Byte → Bool → Shifted) (k : Nat) (s : State) : execShiftAcc k f s =
    let r := f s.cpu.a s.cpu.c
    .next { s with cpu := { setNZ r.result { s.cpu with a := r.result, c := r.carry } with sleep := k - 1 } } := rfl

/-- Settles O24: each accumulator form shifts A and C with its own shift. -/
theorem accumulatorShiftsComplete : Obligations.AccumulatorShiftsComplete := by
  intro s
  simp only [CpuCompletes, shiftAccRows, List.forall_mem_cons]
  exact
    ⟨⟨rfl, rfl, execShiftAcc_eq aslOf 2 s⟩,
     ⟨rfl, rfl, execShiftAcc_eq lsrOf 2 s⟩,
     ⟨rfl, rfl, execShiftAcc_eq rolOf 2 s⟩,
     ⟨rfl, rfl, execShiftAcc_eq rorOf 2 s⟩,
     List.forall_mem_nil _⟩

end Sys2Proof.Machine
end

section
/-! Proofs of the status byte statement (10_state.md R36, R37). -/

namespace Sys2Proof.Machine

open Sys2Proof.Claims

theorem flagAt_getLsbD (b : Bool) {j : Nat} (hj : j < 8) (k : Nat) : (flagAt b j).getLsbD k = (b && decide (k = j)) := by
  have hone : ((1#8) <<< j).getLsbD k = decide (k = j) := by
    rw [BitVec.getLsbD_shiftLeft, BitVec.getLsbD_one]
    by_cases hk : k = j
    · subst hk
      simp [hj]
    · have : ¬ (j ≤ k ∧ k - j = 0) := by omega
      by_cases hjk : k < j <;> simp [hk, hjk]
      omega
  cases b
  · exact BitVec.getLsbD_zero
  · exact hone

/-- Bit `k` of the serialized status is the flag that R36 places there. -/
theorem status_getLsbD (c : Cpu) (b : Bool) (k : Nat) : (c.status b).getLsbD k =
    match k with
    | 7 => c.n | 6 => c.v | 5 => true | 4 => b | 3 => c.d | 2 => c.i | 1 => c.z | 0 => c.c
    | _ => false := by
  have hfive : (0x20#8) = flagAt true 5 := rfl
  simp (disch := decide) only [Cpu.status, hfive, BitVec.getLsbD_or, flagAt_getLsbD]
  split <;> simp_all

theorem status_loadStatus (s : State) (v : Byte) (b : Bool) :
    (s.loadStatus v).cpu.status b = (v &&& 0xCF) ||| 0x20 ||| (if b then 0x10 else 0) := by
  apply BitVec.eq_of_getLsbD_eq
  intro k hk
  rw [status_getLsbD, State.loadStatus_cpu]
  interval_cases k <;> cases b <;> simp [bit]

/-- Settles O35: each flag is read back at its bit, and loading writes the flags alone. -/
theorem statusByte : Obligations.StatusByte :=
  fun s v b => ⟨status_getLsbD s.cpu b, status_loadStatus s v b, rfl⟩

end Sys2Proof.Machine
end

section
/-! What the stack operations leave, in the words of the statements (43_stack.md R260 to R262): the bytes pushed at their
places in page 1, S, the open-bus latch, and every other byte as it was. -/

namespace Sys2Proof.Machine

open Sys2Proof.Claims

theorem stackPlace_inj {p q : Byte} : stackPlace p = stackPlace q ↔ p = q := by
  simp only [stackPlace, Nat.add_left_cancel_iff, BitVec.toNat_inj]

theorem sub_ne_self {k : Byte} (p : Byte) (hk : k ≠ 0) : p - k ≠ p := fun h => hk (sub_eq_self.mp h)

theorem onlyRam_trans {s t u : State} {ps qs : List Nat} (hst : OnlyRam s t ps) (htu : OnlyRam t u qs) :
    OnlyRam s u (ps ++ qs) := fun q i h => by
  have hp : ¬ (q = .ram ∧ i ∈ ps) := fun k => h ⟨k.1, List.mem_append_left qs k.2⟩
  have hq : ¬ (q = .ram ∧ i ∈ qs) := fun k => h ⟨k.1, List.mem_append_right ps k.2⟩
  exact (htu q i hq).trans (hst q i hp)

/-- One push: S, the byte at its place, the latch (R260). -/
theorem push_saved (v : Byte) (s : State) :
    push v s = { s with
      cpu := { s.cpu with s := s.cpu.s - 1 }, ram := (push v s).ram, busLatch := v } ∧
    (push v s).cell .ram (stackPlace s.cpu.s) = v ∧ OnlyRam s (push v s) [stackPlace s.cpu.s] := by
  rw [push_eq]
  refine ⟨rfl, ?_, fun q i h => ?_⟩
  · rw [State.setS_cell, stackPlace, State.cell_setCell_same]
  · rw [State.setS_cell, State.cell_setCell_ne, State.setBusLatch_cell]
    rintro hqi
    cases hqi
    exact h ⟨rfl, List.mem_singleton_self _⟩

/-- Two pushes of a word, high byte first (R262). -/
theorem push16_saved (w : Word) (s : State) :
    push16 w s = { s with
      cpu := { s.cpu with s := s.cpu.s - 2 }, ram := (push16 w s).ram, busLatch := loByte w } ∧
    (push16 w s).cell .ram (stackPlace s.cpu.s) = hiByte w ∧
    (push16 w s).cell .ram (stackPlace (s.cpu.s - 1)) = loByte w ∧
    OnlyRam s (push16 w s) [stackPlace s.cpu.s, stackPlace (s.cpu.s - 1)] := by
  obtain ⟨e, c1, o1⟩ := push_saved (hiByte w) s
  obtain ⟨-, c2, o2⟩ := push_saved (loByte w) (push (hiByte w) s)
  have hs : (push (hiByte w) s).cpu.s = s.cpu.s - 1 := by rw [e]
  rw [hs] at c2 o2
  refine ⟨?_, ?_, c2, onlyRam_trans o1 o2⟩
  · have hsub : s.cpu.s - 1 - 1 = s.cpu.s - 2 := sub_sub _ _ _
    rw [push16_eq, hsub]
    rfl
  · refine (o2 _ _ ?_).trans c1
    rintro ⟨-, h⟩
    exact sub_ne_self s.cpu.s (by decide) (stackPlace_inj.mp (List.mem_singleton.mp h)).symm

/-- The three pushes of an interrupt: the return address, then the status (60_exceptions.md R409). -/
theorem pushes_saved (pc : Word) (p : Byte) (s : State) :
    let u := push p (push16 pc s)
    u = { s with cpu := { s.cpu with s := s.cpu.s - 3 }, ram := u.ram, busLatch := p } ∧
    u.cell .ram (stackPlace s.cpu.s) = hiByte pc ∧ u.cell .ram (stackPlace (s.cpu.s - 1)) = loByte pc ∧
    u.cell .ram (stackPlace (s.cpu.s - 2)) = p ∧
    OnlyRam s u [stackPlace s.cpu.s, stackPlace (s.cpu.s - 1), stackPlace (s.cpu.s - 2)] := by
  intro u
  obtain ⟨e, chi, clo, o1⟩ := push16_saved pc s
  obtain ⟨-, c2, o2⟩ := push_saved p (push16 pc s)
  have hs : (push16 pc s).cpu.s = s.cpu.s - 2 := by rw [e]
  rw [hs] at c2 o2
  refine ⟨?_, ?_, ?_, c2, onlyRam_trans o1 o2⟩
  · have hsub : s.cpu.s - 1 - 1 - 1 = s.cpu.s - 3 := by rw [sub_sub, sub_sub]; rfl
    simp only [u]
    rw [push_eq, push16_eq, State.setS_cpu, hsub]
    rfl
  · refine (o2 _ _ ?_).trans chi
    rintro ⟨-, h⟩
    exact sub_ne_self s.cpu.s (by decide) (stackPlace_inj.mp (List.mem_singleton.mp h)).symm
  · refine (o2 _ _ ?_).trans clo
    rintro ⟨-, h⟩
    exact sub_ne_self (s.cpu.s - 1) (k := 1) (by decide)
      ((sub_sub _ _ _).trans (stackPlace_inj.mp (List.mem_singleton.mp h)).symm)

theorem pull_stackPlace (s : State) : pull s = (s.cell .ram (stackPlace (s.cpu.s + 1)),
    { s with cpu := { s.cpu with s := s.cpu.s + 1 }, busLatch := s.cell .ram (stackPlace (s.cpu.s + 1)) }) :=
  pull_eq s

theorem pull16_stackPlace (s : State) : pull16 s =
    (mkWord (s.cell .ram (stackPlace (s.cpu.s + 2))) (s.cell .ram (stackPlace (s.cpu.s + 1))),
      { s with cpu := { s.cpu with s := s.cpu.s + 2 }, busLatch := s.cell .ram (stackPlace (s.cpu.s + 2)) }) := by
  have h : s.cpu.s + 1 + 1 = s.cpu.s + 2 := add_assoc _ _ _
  rw [pull16_eq, h]
  rfl

end Sys2Proof.Machine
end

section
/-! Proofs of the stack, call and jump statements (43_stack.md, 44_control_transfer.md). -/

namespace Sys2Proof.Machine

open Sys2Proof.Claims

/-- PHA and PHP are a push and its cost (R263, R264). -/
theorem finish_push (k : Nat) (v : Byte) (s : State) : ∃ t, finish k (push v s) = .next t ∧
    t = { s with cpu := { s.cpu with s := s.cpu.s - 1, sleep := k - 1 }, ram := t.ram, busLatch := v } ∧
    t.cell .ram (stackPlace s.cpu.s) = v ∧ OnlyRam s t [stackPlace s.cpu.s] := by
  obtain ⟨e, hc, ho⟩ := push_saved v s
  refine ⟨(push v s).setSleep (k - 1), rfl, ?_, ?_, fun q i h => ?_⟩
  · rw [e]
    rfl
  · rw [State.setSleep_cell, hc]
  · rw [State.setSleep_cell, ho q i h]

/-- Settles O26: each is the push of its byte and its cost. -/
theorem pushesComplete : Obligations.PushesComplete := by
  intro s
  simp only [List.forall_mem_cons]
  exact ⟨⟨rfl, rfl, finish_push 3 s.cpu.a s⟩, ⟨rfl, rfl, finish_push 3 (s.cpu.status true) s⟩, List.forall_mem_nil _⟩

/-- Settles O27: each is a pull, then the load of A or of the status, and its cost. -/
theorem pullsComplete : Obligations.PullsComplete := by
  refine ⟨rfl, rfl, rfl, rfl, fun s => ⟨?_, ?_⟩⟩
  · show finish 4 (loadA (pull s).1 (pull s).2) = _
    rw [pull_stackPlace]
    rfl
  · show finish 4 ((pull s).2.loadStatus (pull s).1) = _
    rw [pull_stackPlace]
    rfl

/-- Settles O29: JSR is the two pushes of the address before PC and the write of PC, RTS two pulls and the word plus 1. -/
theorem subroutineCallsComplete : Obligations.SubroutineCallsComplete := by
  refine ⟨fun w s => ⟨rfl, rfl, ?_⟩, rfl, rfl, fun s => ?_⟩
  · obtain ⟨e, chi, clo, ho⟩ := push16_saved (s.cpu.pc - 1) s
    refine ⟨((push16 (s.cpu.pc - 1) s).setPc w).setSleep 5, rfl, ?_, ?_, ?_, fun q i h => ?_⟩
    · rw [e]
      rfl
    · rw [State.setSleep_cell, State.setPc_cell, chi]
    · rw [State.setSleep_cell, State.setPc_cell, clo]
    · rw [State.setSleep_cell, State.setPc_cell, ho q i h]
  · show finish 6 ((pull16 s).2.setPc ((pull16 s).1 + 1)) = _
    rw [pull16_stackPlace]
    rfl

theorem loByte_add_one (w : Word) : loByte (w + 1) = loByte w + 1 := by
  apply BitVec.eq_of_toNat_eq
  simp [loByte, BitVec.toNat_add]

/-- The pointer's second byte is on the page of its first (30_encoding.md R147). -/
theorem pointerWrap_eq (w : Word) : mkWord (hiByte w) (loByte w + 1) = (w &&& 0xFF00) ||| ((w + 1) &&& 0x00FF) := by
  have hlow : (w + 1) &&& 0x00FF = mkWord 0 (loByte w + 1) := by
    calc (w + 1) &&& 0x00FF
      _ = mkWord (hiByte (w + 1)) (loByte (w + 1)) &&& mkWord 0 (BitVec.allOnes 8) := by rw [mkWord_hiByte_loByte]; rfl
      _ = mkWord (hiByte (w + 1) &&& 0) (loByte (w + 1) &&& BitVec.allOnes 8) := BitVec.and_append
      _ = mkWord 0 (loByte (w + 1)) := congrArg₂ mkWord BitVec.and_zero BitVec.and_allOnes
      _ = mkWord 0 (loByte w + 1) := by rw [loByte_add_one]
  rw [and_pageMask, hlow]
  calc mkWord (hiByte w) (loByte w + 1)
    _ = mkWord (hiByte w ||| 0) (0 ||| (loByte w + 1)) := congrArg₂ mkWord BitVec.or_zero.symm BitVec.zero_or.symm
    _ = mkWord (hiByte w) 0 ||| mkWord 0 (loByte w + 1) := BitVec.or_append.symm

theorem locate_ind_eq (w : Word) (s : State) :
    let lo := busRead w s
    let hi := busRead ((w &&& 0xFF00) ||| ((w + 1) &&& 0x00FF)) lo.2
    locate (.ind w) s = ⟨mkWord hi.1 lo.1, false, hi.2⟩ := by
  simp only [locate, readPointer, pointerWrap_eq]

/-- Settles O28: the absolute form writes PC, the indirect one what its two pointer reads give. -/
theorem jumpsComplete : Obligations.JumpsComplete := by
  intro w s
  refine ⟨rfl, rfl, rfl, rfl, rfl, readOnly_trans (readOnly_busRead s w) (readOnly_busRead _ _), ?_⟩
  show finish 5 ((locate (.ind w) s).st.setPc (locate (.ind w) s).ea) = _
  rw [locate_ind_eq]
  simp [finish, State.setPc, State.setSleep]

end Sys2Proof.Machine
end

section
/-! Proofs of the interrupt and return statements (60_exceptions.md R409 to R414, 45_flags_system.md R298, R299). -/

namespace Sys2Proof.Machine

open Sys2Proof.Claims

variable {s t : State}

/-- The vectors are read from PRG ROM, through the cartridge and the mapper's registers alone (R410). -/
theorem vectorWord_congr (k : IntKind) (hl : t.launch = s.launch) (hm : t.mapper.regs = s.mapper.regs) :
    vectorWord k t = vectorWord k s := by
  obtain ⟨i, hi⟩ := busRead_of_rom s k.vector (vector_in_rom k).1
  obtain ⟨j, hj⟩ := busRead_of_rom s (k.vector + 1) (vector_in_rom k).2
  unfold vectorWord
  rw [hi t hl hm, hi s rfl rfl, hj t hl hm, hj s rfl rfl]

/-- What an interrupt saves is told of the processor but for PC, which the sequence writes. -/
theorem saved_setPc {pc x w newPc : Word} {p : Byte} {k : Nat} (h : Saved (s.setPc x) t pc p w newPc k) :
    Saved s t pc p w newPc k := by
  obtain ⟨hcpu, hhi, hlo, hp, hram, heq⟩ := h
  exact ⟨hcpu, hhi, hlo, hp, fun q i hq => (hram q i hq).trans (State.setPc_cell s x q i), heq⟩

/-- The status byte that an interrupt of kind `k` pushes: the Break bit is BRK's (R411). -/
def pushedStatus (k : IntKind) (c : Cpu) : Byte := c.status (k == .brk)

theorem pushReturn_eq_push {k : IntKind} (hk : k ≠ .reset) :
    pushReturn k s = push (pushedStatus k s.cpu) (push16 s.cpu.pc s) := by
  cases k with
  | reset => exact absurd rfl hk
  | _ => rfl

theorem pushReturn_cpu {k : IntKind} (hk : k ≠ .reset) (s : State) :
    (pushReturn k s).cpu = { s.cpu with s := s.cpu.s - 3 } := by
  rw [pushReturn_eq_push hk, (pushes_saved s.cpu.pc (pushedStatus k s.cpu) s).1]

/-- The pushes, I, the vector's high byte in the latch, and PC and the cost as given. -/
def savedState (k : IntKind) (s : State) (w newPc : Word) (n : Nat) : State :=
  { pushReturn k s with
    busLatch := hiByte w
    cpu := { s.cpu with s := s.cpu.s - 3, i := true, pc := newPc, sleep := n } }

theorem saved_savedState {k : IntKind} (hk : k ≠ .reset) (s : State) (w newPc : Word) (n : Nat) :
    Saved s (savedState k s w newPc n) s.cpu.pc (pushedStatus k s.cpu) w newPc n := by
  obtain ⟨e, hhi, hlo, hp, hram⟩ := pushes_saved s.cpu.pc (pushedStatus k s.cpu) s
  have hcell : ∀ q i, (savedState k s w newPc n).cell q i =
      (push (pushedStatus k s.cpu) (push16 s.cpu.pc s)).cell q i := fun q i => by
    rw [← pushReturn_eq_push hk]
    exact State.cell_congr _ _ rfl rfl rfl rfl rfl rfl rfl q i
  refine ⟨rfl, (hcell _ _).trans hhi, (hcell _ _).trans hlo, (hcell _ _).trans hp,
    fun q i hq => (hcell q i).trans (hram q i hq), ?_⟩
  rw [savedState, pushReturn_eq_push hk, e]

/-- Taking an interrupt other than Reset (R409, R410, R421). -/
theorem takeInterrupt_saved {k : IntKind} (hk : k ≠ .reset) (s : State) : takeInterrupt k s =
    if vectorWord k s = 0xFFFF then .fault (.badVector k.vector (savedState k s 0xFFFF s.cpu.pc s.cpu.sleep))
    else .next (savedState k s (vectorWord k s) (vectorWord k s) 6) := by
  have hw : vectorWordAt s k = vectorWord k s := rfl
  rw [takeInterrupt_eq, hw]
  dsimp only
  by_cases h : vectorWord k s = 0xFFFF
  · rw [if_pos h, if_pos h, h]
    simp only [State.setI, pushReturn_cpu hk]
    rfl
  · rw [if_neg h, if_neg h]
    simp only [State.setI, pushReturn_cpu hk]
    rfl

theorem takeInterrupt_entry {k : IntKind} (hk : k ≠ .reset) (s : State) :
    (vectorWord k s ≠ 0xFFFF → ∃ t, takeInterrupt k s = .next t ∧
      Entered s t s.cpu.pc (pushedStatus k s.cpu) (vectorWord k s)) ∧
    (vectorWord k s = 0xFFFF → ∃ t, takeInterrupt k s = .fault (.badVector k.vector t) ∧
      EntryFailed s t s.cpu.pc (pushedStatus k s.cpu)) := by
  rw [takeInterrupt_saved hk]
  constructor <;> intro hw
  · exact ⟨_, if_neg hw, saved_savedState hk s _ _ 6⟩
  · exact ⟨_, if_pos hw, saved_savedState hk s _ _ _⟩

/-- Settles O10: NMI and IRQ are the entry with the Break bit 0. -/
theorem interruptEntry : Obligations.InterruptEntry := by
  rintro s k (rfl | rfl)
  · exact takeInterrupt_entry (by decide) s
  · exact takeInterrupt_entry (by decide) s

/-- Settles O11: BRK is the entry with the Break bit 1, from the address after the byte it skips. -/
theorem brkCompletes : Obligations.BrkCompletes := by
  refine ⟨rfl, rfl, fun s => ?_⟩
  have hv : vectorWord .brk (s.setPc (s.cpu.pc + 1)) = vectorWord .brk s := vectorWord_congr .brk rfl rfl
  obtain ⟨hgood, hbad⟩ := takeInterrupt_entry (k := .brk) (by decide) (s.setPc (s.cpu.pc + 1))
  rw [hv] at hgood hbad
  refine ⟨fun hw => ?_, fun hw => ?_⟩
  · obtain ⟨t, ht, hs⟩ := hgood hw
    exact ⟨t, ht, saved_setPc hs⟩
  · obtain ⟨t, ht, hs⟩ := hbad hw
    exact ⟨t, ht, saved_setPc hs⟩

/-- Settles O12: RTI pulls the status, then PC, and its cost is 6. -/
theorem rtiCompletes : Obligations.RtiCompletes := by
  refine ⟨rfl, rfl, fun s => ?_⟩
  have h2 : s.cpu.s + 1 + 1 = s.cpu.s + 2 := add_assoc _ _ _
  have h3 : s.cpu.s + 2 + 1 = s.cpu.s + 3 := add_assoc _ _ _
  show finish 6 (returnFromInterrupt s) = _
  rw [returnFromInterrupt_eq, h2, h3]
  rfl

/-- RTI from an entered state reads back what the entry pushed (R414). -/
theorem exec_rti_of_saved {pc w newPc : Word} {b : Bool} {n : Nat} (h : Saved s t pc (s.cpu.status b) w newPc n) :
    ∃ u, exec .rti t = .next u ∧ u.cpu = { s.cpu with pc := pc, sleep := 5 } ∧ u.ram = t.ram := by
  obtain ⟨hcpu, hhi, hlo, hp, -, -⟩ := h
  have h1 : s.cpu.s - 3 + 1 = s.cpu.s - 2 := by ring
  have h2 : s.cpu.s - 3 + 2 = s.cpu.s - 1 := by ring
  have h3 : s.cpu.s - 3 + 3 = s.cpu.s := sub_add_cancel _ _
  refine ⟨_, rtiCompletes.2.2 t, ?_, rfl⟩
  rw [hcpu]
  simp only [h1, h2, h3, hp, hlo, hhi, status_getLsbD, mkWord_hiByte_loByte]

/-- RTS from the state that JSR leaves reads back the address that JSR pushed. -/
theorem exec_rts_of_jsr {w : Word} (h : exec (.jsr w) s = .next t) :
    ∃ u, exec .rts t = .next u ∧ u.cpu = { s.cpu with sleep := 5 } ∧ u.ram = t.ram := by
  obtain ⟨-, -, t', ht', heq, hhi, hlo, -⟩ := subroutineCallsComplete.1 w s
  cases ht'.symm.trans h
  have hs : t.cpu.s = s.cpu.s - 2 := by rw [heq]
  have h1 : s.cpu.s - 2 + 1 = s.cpu.s - 1 := by ring
  have h2 : s.cpu.s - 2 + 2 = s.cpu.s := sub_add_cancel _ _
  have h3 : s.cpu.pc - 1 + 1 = s.cpu.pc := sub_add_cancel _ _
  refine ⟨_, subroutineCallsComplete.2.2.2 t, ?_, rfl⟩
  simp only [hs, h1, h2, hlo, hhi, mkWord_hiByte_loByte, h3]
  rw [heq]

/-- Settles O13: each return reads back the bytes that its entry pushed. -/
theorem returnsUndoEntries : Obligations.ReturnsUndoEntries := by
  refine ⟨fun s t k hk h => ?_, fun w s t => exec_rts_of_jsr⟩
  rw [takeInterrupt_saved hk] at h
  split at h <;> cases h
  exact exec_rti_of_saved (saved_savedState hk s _ _ 6)

end Sys2Proof.Machine
end

section
/-! Proofs of the word read, open bus and addressing mode statements (20_memory.md, 30_encoding.md section 2). -/

namespace Sys2Proof.Machine

open Sys2Proof.Claims

/-- Settles O41: the port test stands before both reads, and reads of anything else change the latch alone. -/
theorem wordReads : Obligations.WordReads := by
  intro a s
  refine ⟨fun h => if_pos h, fun h => ?_⟩
  obtain ⟨h1, h2⟩ := Bool.or_eq_false_iff.mp h
  have hr : readWord a s = .ok (mkWord (busRead (a + 1) (busRead a s).2).1 (busRead a s).1,
      (busRead (a + 1) (busRead a s).2).2) := if_neg (by rw [h]; decide)
  rw [hr, busRead_not_port _ _ h2, busRead_not_port _ _ h1]
  rfl

/-- Which addresses no region owns (20_memory.md R83 to R85). -/
theorem busSelect_eq_openBus_iff (s : State) (a : Word) : busSelect s a = .openBus ↔
    (0x4000 ≤ a.toNat ∧ a.toNat < 0x6000) ∨
      (0x6000 ≤ a.toNat ∧ a.toNat < 0x8000 ∧ prgRamWindow s.launch.cart s.mapper.regs = none) := by
  unfold busSelect
  split
  · simp only [reduceCtorEq, false_iff]
    omega
  · split
    · split <;> rename_i hw <;> simp only [reduceCtorEq, false_iff, true_iff, hw]
      · simp
        omega
      · simp
        omega
    · split
      · simp only [reduceCtorEq, false_iff]
        omega
      · split
        · simp only [reduceCtorEq, false_iff]
          omega
        · simp only [true_iff]
          omega

theorem busRead_of_openBus {s : State} {a : Word} (h : busSelect s a = .openBus) : busRead a s = (s.busLatch, s) := by
  simp only [busRead, h]

/-- Settles O38: open bus is the decoder's last answer, and both accesses there are of the latch alone. -/
theorem openBus : Obligations.OpenBus := by
  refine fun a v s => ⟨busSelect_eq_openBus_iff s a, fun h => ⟨busRead_of_openBus h, ?_⟩⟩
  have ha : a.toNat < 0x8000 := by
    rcases (busSelect_eq_openBus_iff s a).mp h with hlow | hram <;> omega
  exact busWrite_of_openBus s a v ha h

theorem busRead_zeroPage (z : Byte) (s : State) :
    busRead (zext z) s = (s.cell .ram z.toNat, { s with busLatch := s.cell .ram z.toNat }) := by
  have hz := z.isLt
  have hmod : (zext z).toNat % 0x800 = z.toNat := by
    rw [zext_toNat]
    omega
  rw [busRead_of_ram s _ (by rw [zext_toNat]; omega), hmod]
  rfl

/-- The pointer of the two zero-page indirect modes (30_encoding.md R148, R149). -/
theorem readPointer_zeroPage (p q : Byte) (s : State) : readPointer (zext p) (zext q) s =
    (mkWord (s.cell .ram q.toNat) (s.cell .ram p.toNat), { s with busLatch := s.cell .ram q.toNat }) := by
  simp only [readPointer, busRead_zeroPage]
  rfl

theorem locate_indx_eq (b : Byte) (s : State) : locate (.indx b) s =
    ⟨mkWord (s.cell .ram (b + s.cpu.x + 1).toNat) (s.cell .ram (b + s.cpu.x).toNat), false,
      { s with busLatch := s.cell .ram (b + s.cpu.x + 1).toNat }⟩ := by
  have hnext : b + (s.cpu.x + 1) = b + s.cpu.x + 1 := (add_assoc _ _ _).symm
  simp only [locate, zeroPage, readPointer_zeroPage, hnext]

theorem locate_indy_eq (b : Byte) (s : State) :
    let p := mkWord (s.cell .ram (b + 1).toNat) (s.cell .ram b.toNat)
    locate (.indy b) s = ⟨p + s.cpu.y.setWidth 16, decide (p &&& 0xFF00 ≠ (p + s.cpu.y.setWidth 16) &&& 0xFF00),
      { s with busLatch := s.cell .ram (b + 1).toNat }⟩ := by
  have hzero : b + 0 = b := BitVec.add_zero b
  simp only [locate, zeroPage, readPointer_zeroPage, hzero, pageCrossed_eq]
  rfl

/-- Settles O36: each mode's rule is its arm of `locate`; the zero-page pointers are read from internal RAM. -/
theorem modesLocate : Obligations.ModesLocate := by
  intro b w s
  have hzp : locate (.zp b) s = ⟨b.setWidth 16, false, s⟩ := by
    show (⟨zext (b + 0), false, s⟩ : Located) = _
    rw [show b + 0 = b from BitVec.add_zero b]
    rfl
  have hindexed : ∀ r : Byte, (⟨indexed w r, pageCrossed w (indexed w r), s⟩ : Located) =
      ⟨w + r.setWidth 16, decide (w &&& 0xFF00 ≠ (w + r.setWidth 16) &&& 0xFF00), s⟩ := fun r => by
    rw [pageCrossed_eq]
    rfl
  exact ⟨hzp, rfl, rfl, rfl, hindexed s.cpu.x, hindexed s.cpu.y, locate_indx_eq b s, locate_indy_eq b s,
    locate_ind_eq w s, rfl, rfl, rfl, fun _ => rfl, fun _ => rfl, rfl, rfl, rfl, rfl⟩

end Sys2Proof.Machine
end

section
/-! Proofs of the processor step statements (60_exceptions.md R400 to R408). -/

namespace Sys2Proof.Machine

open Sys2Proof.Claims

variable {s : State}

theorem cpuStep_of_nmi (hsleep : s.cpu.sleep = 0) (hn : s.cpu.nmiPending = true) :
    cpuStep s = takeInterrupt .nmi { s with cpu := { s.cpu with nmiPending := false } } :=
  (if_neg (by omega)).trans (if_pos hn)

theorem cpuStep_of_irq (hsleep : s.cpu.sleep = 0) (hn : s.cpu.nmiPending = false)
    (hq : (s.cpu.irqPending && !s.cpu.i) = true) : cpuStep s = takeInterrupt .irq s :=
  (if_neg (by omega)).trans ((if_neg (Bool.eq_false_iff.mp hn)).trans (if_pos hq))

theorem cpuStep_of_fetch (hsleep : s.cpu.sleep = 0) (hn : s.cpu.nmiPending = false)
    (hq : (s.cpu.irqPending && !s.cpu.i) = false) : cpuStep s = fetchExecute s :=
  (if_neg (by omega)).trans ((if_neg (Bool.eq_false_iff.mp hn)).trans (if_neg (Bool.eq_false_iff.mp hq)))

theorem irq_masked (h : s.cpu.irqPending = false ∨ s.cpu.i = true) : (s.cpu.irqPending && !s.cpu.i) = false := by
  rcases h with h | h <;> simp [h]

/-- Settles O8: the three tests of the processor step in their order. -/
theorem interruptPriority : Obligations.InterruptPriority :=
  fun _ hsleep => ⟨cpuStep_of_nmi hsleep, fun hn hq hi => cpuStep_of_irq hsleep hn (by rw [hq, hi]; rfl),
    fun hn hq => cpuStep_of_fetch hsleep hn (irq_masked hq)⟩

/-- The opcode fetch: the byte at PC, and PC past it (R406). -/
theorem fetchOpcode_eq (s : State) : fetchOpcode s = ((busRead s.cpu.pc s).1,
    { (busRead s.cpu.pc s).2 with cpu := { s.cpu with pc := s.cpu.pc + 1 } }) := by
  simp only [fetchOpcode, State.setPc, busRead_cpu]

theorem fetchExecute_of_unregistered (h : formOf (busRead s.cpu.pc s).1 = none) : fetchExecute s =
    unregistered (busRead s.cpu.pc s).1 s.cpu.pc
      { (busRead s.cpu.pc s).2 with cpu := { s.cpu with pc := s.cpu.pc + 1 } } := by
  simp only [fetchExecute, fetchOpcode_eq, h]

/-- Settles O9: the fetched byte has no form, and the policy is the launch's, which the fetch leaves. -/
theorem unregisteredOpcodePolicy : Obligations.UnregisteredOpcodePolicy := by
  intro s hsleep hn hq op u t hop
  have hl : u.launch = s.launch := busRead_launch s s.cpu.pc
  rw [cpuStep_of_fetch hsleep hn (irq_masked hq), fetchExecute_of_unregistered (formOf_eq_none_iff.mpr hop)]
  refine ⟨fun hp => if_neg ?_, fun hp => if_pos ?_⟩
  · show ¬ u.launch.strictOpcodes = true
    rw [hl, hp]
    decide
  · show u.launch.strictOpcodes = true
    rw [hl, hp]

end Sys2Proof.Machine
end

section
/-! Proof of the statement of a whole step that runs an instruction (60_exceptions.md R406, 30_encoding.md R138,
70_reset_and_hazards.md R720, R721). -/

namespace Sys2Proof.Machine

open Sys2Proof.Claims

theorem handleOutcome_eq_surfaced (o : Outcome) : handleOutcome o = surfaced o := by
  cases o with
  | next s => rfl
  | refused r => rfl
  | fault f =>
    cases f with
    | invalidOpcode op a t => simp [noted, surfaced, State.noteFault, FaultCause.fatal]
    | badVector v t => simp [noted, surfaced, State.noteFault, FaultCause.fatal]
    | portWordRead a t => simp [noted, surfaced, State.noteFault, FaultCause.fatal]
    | loadUnsupportedMapper n => rfl
    | loadMalformedRom => rfl

theorem recordTrace_eq_traced (tr : Trace) (o : Outcome) : recordTrace tr o = traced tr o := by
  cases o <;> rfl

theorem machineMove_of_tick {s : State} (hr : s.hostRequest = none) (hs : (s.shutdown || s.stopped) = false) :
    machineMove s = systemTick s := by
  simp only [machineMove, hr, hs, Bool.false_eq_true, if_false]

/-- What a fetched form runs: the trace of the filled form, then its meaning; or the operand word's fault. -/
theorem fetchExecute_of_form {s : State} {f : Form} (h : formOf (busRead s.cpu.pc s).1 = some f) : fetchExecute s =
    match fetchOperand f { (busRead s.cpu.pc s).2 with cpu := { s.cpu with pc := s.cpu.pc + 1 } } with
    | .error e => .fault e
    | .ok g => traced (snapshot s.cpu.pc (busRead s.cpu.pc s).1 g.bytes g.instr g.st) (exec g.instr g.st) := by
  simp only [fetchExecute, fetchOpcode_eq, h, recordTrace_eq_traced]
  rfl

/-- A list of bytes that decodes to one instruction and no rest fills the form of its first byte with the others. -/
theorem fill_of_decode {op : Byte} {bytes : List Byte} {i : Instr} (h : decode (op :: bytes) = .ok (i, [])) :
    ∃ f, formOf op = some f ∧ f.fill bytes = some i := by
  obtain ⟨op', f, bytes', hsplit, hf, hfill⟩ := decode_eq_ok_iff.mp h
  rw [List.append_nil] at hsplit
  cases hsplit
  exact ⟨f, hf, hfill⟩

theorem Form.eq_of_fill_nil {f : Form} {i : Instr} (h : f.fill [] = some i) : f = .f1 i := by
  cases f with
  | f1 j => cases h; rfl
  | f2 k => cases h
  | f3 k => cases h

theorem Form.eq_of_fill_byte {f : Form} {b : Byte} {i : Instr} (h : f.fill [b] = some i) :
    ∃ k, f = .f2 k ∧ k b = i := by
  cases f with
  | f1 j => cases h
  | f2 k => cases h; exact ⟨k, rfl, rfl⟩
  | f3 k => cases h

theorem Form.eq_of_fill_word {f : Form} {lo hi : Byte} {i : Instr} (h : f.fill [lo, hi] = some i) :
    ∃ k, f = .f3 k ∧ k (mkWord hi lo) = i := by
  cases f with
  | f1 j => cases h
  | f2 k => cases h
  | f3 k => cases h; exact ⟨k, rfl, rfl⟩

section Fetch

/-! One fetch of each length, in the words of StepRunsDecodedInstruction: `r0`, `r1`, `r2` are its reads, `u0`, `u1`, `u2` the
states after them with PC past the bytes read. -/

variable {u : State} {i : Instr}

theorem fetchExecute_one_byte :
    let r0 := busRead u.cpu.pc u
    let u0 := { r0.2 with cpu := { u.cpu with pc := u.cpu.pc + 1 } }
    decode [r0.1] = .ok (i, []) →
      fetchExecute u = traced (snapshot u.cpu.pc r0.1 [] i u0) (exec i u0) := by
  intro r0 u0 h
  obtain ⟨f, hf, hfill⟩ := fill_of_decode h
  rw [fetchExecute_of_form hf, Form.eq_of_fill_nil hfill]
  rfl

theorem fetchExecute_two_bytes :
    let pc := u.cpu.pc
    let r0 := busRead pc u
    let u0 := { r0.2 with cpu := { u.cpu with pc := pc + 1 } }
    let r1 := busRead (pc + 1) u0
    let u1 := { r1.2 with cpu := { u.cpu with pc := pc + 2 } }
    decode [r0.1, r1.1] = .ok (i, []) →
      fetchExecute u = traced (snapshot pc r0.1 [r1.1] i u1) (exec i u1) := by
  intro pc r0 u0 r1 u1 h
  obtain ⟨f, hf, hfill⟩ := fill_of_decode h
  obtain ⟨k, rfl, hk⟩ := Form.eq_of_fill_byte hfill
  have hfetch : fetchOperand (.f2 k) u0 = .ok ⟨i, [r1.1], u1⟩ := by
    have hpc : pc + 1 + 1 = pc + 2 := add_assoc _ _ _
    simp only [fetchOperand, u0, State.setPc, busRead_cpu, hpc]
    rw [← hk]
  rw [fetchExecute_of_form hf, hfetch]

theorem fetchExecute_three_bytes :
    let pc := u.cpu.pc
    let r0 := busRead pc u
    let u0 := { r0.2 with cpu := { u.cpu with pc := pc + 1 } }
    let r1 := busRead (pc + 1) u0
    let r2 := busRead (pc + 2) r1.2
    let u2 := { r2.2 with cpu := { u.cpu with pc := pc + 3 } }
    decode [r0.1, r1.1, r2.1] = .ok (i, []) →
      ((isPort (pc + 1) || isPort (pc + 2)) = false →
        fetchExecute u = traced (snapshot pc r0.1 [r1.1, r2.1] i u2) (exec i u2)) ∧
      ((isPort (pc + 1) || isPort (pc + 2)) = true → fetchExecute u = .fault (.portWordRead (pc + 1) u0)) := by
  intro pc r0 u0 r1 r2 u2 h
  obtain ⟨f, hf, hfill⟩ := fill_of_decode h
  obtain ⟨k, rfl, hk⟩ := Form.eq_of_fill_word hfill
  have hpc2 : pc + 1 + 1 = pc + 2 := add_assoc _ _ _
  have hpc3 : pc + 1 + 2 = pc + 3 := add_assoc _ _ _
  rw [fetchExecute_of_form hf]
  refine ⟨fun hp => ?_, fun hp => ?_⟩
  · have hread : readWord (pc + 1) u0 = .ok (mkWord r2.1 r1.1, r2.2) := by
      rw [readWord, hpc2, if_neg (Bool.eq_false_iff.mp hp)]
    have hfetch : fetchOperand (.f3 k) u0 = .ok ⟨i, [r1.1, r2.1], u2⟩ := by
      simp only [fetchOperand]
      rw [show u0.cpu.pc = pc + 1 from rfl, hread]
      simp only [loByte_mkWord, hiByte_mkWord, State.setPc, hk, hpc3, u2, r2, r1, u0, busRead_cpu]
    rw [hfetch]
  · have hread : readWord (pc + 1) u0 = .error (.portWordRead (pc + 1) u0) := by
      rw [readWord, hpc2, if_pos hp]
    have hfetch : fetchOperand (.f3 k) u0 = .error (.portWordRead (pc + 1) u0) := by
      simp only [fetchOperand]
      rw [show u0.cpu.pc = pc + 1 from rfl, hread]
    rw [hfetch]

end Fetch

/-- Settles O5: the step is the processor step after three dots, and its fetch fills the form of the byte at PC. -/
theorem stepRunsDecodedInstruction : Obligations.StepRunsDecodedInstruction := by
  intro s hr hshut hstop u pc hsleep hn hq
  have hstep : step s = surfaced (fetchExecute u) := by
    rw [step, machineStep, handleOutcome_eq_surfaced, machineMove_of_tick hr (by rw [hshut, hstop]; rfl)]
    exact congrArg surfaced (cpuStep_of_fetch hsleep hn hq)
  rw [hstep]
  clear_value u
  exact ⟨fun i h => congrArg surfaced (fetchExecute_one_byte h), fun i h => congrArg surfaced (fetchExecute_two_bytes h),
    fun i h => ⟨fun hp => congrArg surfaced ((fetchExecute_three_bytes h).1 hp),
      fun hp => congrArg surfaced ((fetchExecute_three_bytes h).2 hp)⟩⟩

end Sys2Proof.Machine
end

section
/-! What running an instruction can do, said once: a chain of bus accesses and register writes (`Accessed`), the registers and
flags it may write (`Touches`), and its cost (`Ran`). The statements over every instruction and every step follow from it. -/

namespace Sys2Proof.Machine

open Sys2Proof.Claims

/-- `c'` has the latches, the record and the snapshot of `c`: what no register write of an instruction reaches (R41 to R44). -/
structure SameLatches (c c' : Cpu) : Prop where
  nmiPending : c'.nmiPending = c.nmiPending := by rfl
  irqPending : c'.irqPending = c.irqPending := by rfl
  unsupportedSeen : c'.unsupportedSeen = c.unsupportedSeen := by rfl
  trace : c'.trace = c.trace := by rfl

/-- `t` is reached from `s` by bus accesses, the writes among them at addresses of `W`, and by register writes. -/
inductive Accessed (W : Word → Prop) (s : State) : State → Prop
  | refl : Accessed W s s
  | read {u : State} (a : Word) : Accessed W s u → Accessed W s (busRead a u).2
  | write {u : State} (a : Word) (v : Byte) : W a → Accessed W s u → Accessed W s (busWrite a v u)
  | latch {u : State} (b : Byte) : Accessed W s u → Accessed W s (u.setBusLatch b)
  | cpu {u : State} (c : Cpu) : SameLatches u.cpu c → Accessed W s u → Accessed W s { u with cpu := c }

/-- What the bus and register writes keep. -/
structure Keeps (P : State → Prop) : Prop where
  read : ∀ {u} (a : Word), P u → P (busRead a u).2
  write : ∀ {u} (a : Word) (v : Byte), P u → P (busWrite a v u)
  latch : ∀ {u : State} (b : Byte), P u → P (u.setBusLatch b)
  cpu : ∀ {u : State} (c : Cpu), SameLatches u.cpu c → P u → P { u with cpu := c }

theorem Keeps.accessed {P : State → Prop} (hP : Keeps P) {W : Word → Prop} {s t : State} (h : Accessed W s t)
    (hs : P s) : P t := by
  induction h with
  | refl => exact hs
  | read a _ ih => exact hP.read a ih
  | write a v _ _ ih => exact hP.write a v ih
  | latch b _ ih => exact hP.latch b ih
  | cpu c hc _ ih => exact hP.cpu c hc ih

/-- The addresses of the stack's page and of the rest of internal RAM. -/
def InRam (a : Word) : Prop := a.toNat < 0x2000

theorem inRam_stackAddr (p : Byte) : InRam (stackAddr p) := by
  have hp := p.isLt
  rw [InRam, stackAddr_toNat]
  omega

section Accessed

variable {W : Word → Prop} {s u : State}

theorem Accessed.mono {W' : Word → Prop} (hW : ∀ a, W a → W' a) (h : Accessed W s u) : Accessed W' s u := by
  induction h with
  | refl => exact .refl
  | read a _ ih => exact ih.read a
  | write a v ha _ ih => exact ih.write a v (hW a ha)
  | latch b _ ih => exact ih.latch b
  | cpu c hc _ ih => exact ih.cpu c hc

/-- A step of the chain that writes registers: everything but the processor as it was. -/
theorem Accessed.regs {t : State} (h : Accessed W s u) (ht : t = { u with cpu := t.cpu })
    (hl : SameLatches u.cpu t.cpu) : Accessed W s t := by
  rw [ht]
  exact h.cpu _ hl

theorem Accessed.locate (a : Addr) (h : Accessed W s u) : Accessed W s (locate a u).st := by
  rcases locate_st u a with e | ⟨p, q, e⟩ <;> rw [e]
  · exact h
  · exact (h.read p).read q

theorem Accessed.readSource (src : Source) (h : Accessed W s u) : Accessed W s (readSource src u).st := by
  rcases readSource_st u src with e | ⟨a, -, e⟩ <;> rw [e]
  · exact h
  · exact (h.locate a).read _

theorem Accessed.push (v : Byte) (h : Accessed InRam s u) : Accessed InRam s (push v u) :=
  (h.write _ v (inRam_stackAddr u.cpu.s)).regs rfl {}

theorem Accessed.push16 (w : Word) (h : Accessed InRam s u) : Accessed InRam s (push16 w u) :=
  (h.push _).push _

theorem Accessed.pull (h : Accessed W s u) : Accessed W s (pull u).2 :=
  (h.cpu { u.cpu with s := u.cpu.s + 1 } {}).read _

theorem Accessed.pull16 (h : Accessed W s u) : Accessed W s (pull16 u).2 :=
  h.pull.pull

theorem Accessed.pushReturn (k : IntKind) (h : Accessed InRam s u) : Accessed InRam s (pushReturn k u) := by
  cases k with
  | reset => exact h
  | _ => exact (h.push16 _).push _

theorem Accessed.returnFromInterrupt (h : Accessed W s u) : Accessed W s (returnFromInterrupt u) := by
  rw [returnFromInterrupt_eq]
  exact ((h.regs (t := (u.loadStatus _).setS _) rfl {}).latch _).regs rfl {}

end Accessed

/-- Taking an interrupt pushes to internal RAM, reads the vector and writes registers. -/
theorem accessed_takeInterrupt {s t : State} {k : IntKind} (h : takeInterrupt k s = .next t) : Accessed InRam s t := by
  rw [takeInterrupt_eq] at h
  dsimp only at h
  split at h <;> cases h
  exact (((Accessed.refl.pushReturn k).regs (t := (pushReturn k s).setI true) rfl {}).latch _).regs rfl {}

/-- A register or flag that differs in `k'` has `op` among its writers (10_state.md R30 to R33, R38). -/
structure Touches (op : Byte) (k k' : Cpu) : Prop where
  a : k'.a ≠ k.a → op ∈ writersOfA := by exact fun h => absurd rfl h
  x : k'.x ≠ k.x → op ∈ writersOfX := by exact fun h => absurd rfl h
  y : k'.y ≠ k.y → op ∈ writersOfY := by exact fun h => absurd rfl h
  s : k'.s ≠ k.s → op ∈ writersOfS := by exact fun h => absurd rfl h
  c : k'.c ≠ k.c → op ∈ writersOfC := by exact fun h => absurd rfl h
  z : k'.z ≠ k.z → op ∈ writersOfNZ := by exact fun h => absurd rfl h
  n : k'.n ≠ k.n → op ∈ writersOfNZ := by exact fun h => absurd rfl h
  i : k'.i ≠ k.i → op ∈ writersOfI := by exact fun h => absurd rfl h
  d : k'.d ≠ k.d → op ∈ writersOfD := by exact fun h => absurd rfl h
  v : k'.v ≠ k.v → op ∈ writersOfV := by exact fun h => absurd rfl h

/-- What an instruction of opcode `op` does to the processor but for PC, the cost and the bus's latches. -/
structure Acts (op : Byte) (k k' : Cpu) : Prop extends Touches op k k', SameLatches k k'

/-- The addresses that an instruction writes: its effective address, and the stack. -/
def WritesAt (i : Instr) (s : State) (a : Word) : Prop :=
  InRam a ∨ ∃ m, i.operand = .src (.mem m) ∧ a = (locate m s).ea

/-- All that running `i` in `s` can do: bus accesses and register writes, those of the writer lists alone (10 R30 to R38),
and a cost of 2 to 7. -/
structure Ran (i : Instr) (s t : State) : Prop where
  accessed : Accessed (WritesAt i s) s t
  touches : Touches i.opcode s.cpu t.cpu
  two_le : 1 ≤ t.cpu.sleep
  le_seven : t.cpu.sleep ≤ 6

/-- `i` completes in `s`, and does no more than `Ran` says. -/
def Completes (i : Instr) (s : State) : Prop := ∃ t, exec i s = .next t ∧ Ran i s t

section Acts

variable {op : Byte} {k k' : Cpu}

theorem Touches.of_latches {nmi irq : Bool} {n : Nat}
    (h : Touches op { k with nmiPending := nmi, irqPending := irq } k') : Touches op k { k' with sleep := n } :=
  ⟨h.a, h.x, h.y, h.s, h.c, h.z, h.n, h.i, h.d, h.v⟩

end Acts

section Completes

variable {i : Instr} {s : State}

/-- Register writes, and a read's latch. -/
theorem completes_of_latch (k : Cpu) {b : Byte} {n : Nat}
    (h : exec i s = .next { s with busLatch := b, cpu := { k with sleep := n } }) (hk : Acts i.opcode s.cpu k)
    (hn : 1 ≤ n ∧ n ≤ 6) : Completes i s := by
  refine ⟨_, h, ⟨.cpu (u := s.setBusLatch b) { k with sleep := n } ?_ (.latch b .refl), ?_, hn.1, hn.2⟩⟩
  · exact ⟨hk.nmiPending, hk.irqPending, hk.unsupportedSeen, hk.trace⟩
  · exact Touches.of_latches hk.toTouches

/-- Register writes alone. -/
theorem completes_of_cpu (k : Cpu) {n : Nat} (h : exec i s = .next { s with cpu := { k with sleep := n } })
    (hk : Acts i.opcode s.cpu k) (hn : 1 ≤ n ∧ n ≤ 6) : Completes i s :=
  completes_of_latch k (b := s.busLatch) h hk hn

/-- Pushes, then register writes. -/
theorem completes_of_pushes {u t : State} (h : exec i s = .next t) (hu : Accessed InRam s u)
    (hcpu : u.cpu = { s.cpu with s := u.cpu.s }) (hS : i.opcode ∈ writersOfS) (pc : Word) (n : Nat)
    (ht : t = { u with cpu := { u.cpu with pc := pc, sleep := n } }) (hc : 1 ≤ n ∧ n ≤ 6) : Completes i s := by
  have htouch : Touches i.opcode s.cpu t.cpu := by
    rw [ht, hcpu]
    exact { s := fun _ => hS }
  subst ht
  exact ⟨_, h, ⟨(hu.mono fun _ => Or.inl).cpu _ {}, htouch, hc.1, hc.2⟩⟩

/-- An operand read whose effect acts on the processor as its opcode may. -/
theorem completes_of_read {f : Byte → State → State} {effect : Byte → Cpu → Cpu} {c : Nat} {src : Source}
    (h : exec i s = execRead c src f s) (hf : ActsOnCpu f effect) (he : ∀ m k, Acts i.opcode k (effect m k))
    (hc : 2 ≤ c ∧ c ≤ 6) : Completes i s := by
  have hk := he (readSource src s).value s.cpu
  refine ⟨_, h.trans (execRead_eq hf c src s), ⟨?_, Touches.of_latches hk.toTouches, ?_, ?_⟩⟩
  · refine (Accessed.refl.readSource src).regs rfl ?_
    rw [readSource_cpu]
    exact ⟨hk.nmiPending, hk.irqPending, hk.unsupportedSeen, hk.trace⟩
  · dsimp only
    omega
  · dsimp only
    split <;> omega

/-- A store, or a read-modify-write. -/
theorem completes_of_write {u : State} {a : Addr} {v : Byte} {k : Cpu} {c : Nat}
    (ha : i.operand = .src (.mem a)) (hu : Accessed (WritesAt i s) s u) (hcpu : u.cpu = s.cpu)
    (h : exec i s = .next { busWrite (locate a s).ea v u with cpu := { k with sleep := c - 1 } })
    (hk : Acts i.opcode (busWrite (locate a s).ea v u).cpu k) (hc : 2 ≤ c ∧ c ≤ 7) : Completes i s := by
  have ht := hk.toTouches
  rw [busWrite_cpu, hcpu] at ht
  exact ⟨_, h, ⟨.cpu _ ⟨hk.nmiPending, hk.irqPending, hk.unsupportedSeen, hk.trace⟩
      (hu.write _ v (.inr ⟨a, ha, rfl⟩)),
    Touches.of_latches ht, Nat.le_sub_of_add_le hc.1, Nat.sub_le_of_le_add hc.2⟩⟩

theorem completes_of_store {c : Nat} {a : Addr} {v : Byte} (h : exec i s = execStore c a v s)
    (ha : i.operand = .src (.mem a)) (hc : 2 ≤ c ∧ c ≤ 7) : Completes i s :=
  completes_of_write ha (Accessed.refl.locate a) (locate_cpu s a) h {} hc

theorem completes_of_modify {result : Byte → Cpu → Byte} {effect : Byte → Cpu → Cpu} {c : Nat} {a : Addr}
    (h : exec i s = .next (modified result effect c a s)) (ha : i.operand = .src (.mem a))
    (he : ∀ m k, Acts i.opcode k (effect m k)) (hc : 2 ≤ c ∧ c ≤ 7) : Completes i s :=
  completes_of_write ha ((Accessed.refl.locate a).read _) (by rw [busRead_cpu, locate_cpu]) h (he _ _) hc

end Completes

section Effects

/-! The effects of the shared meanings, each within the writer lists that have its opcode. -/

variable {op : Byte}

theorem acts_a (h : op ∈ writersOfA ∧ op ∈ writersOfNZ) (v : Byte) (k : Cpu) :
    Acts op k (setNZ v { k with a := v }) :=
  { a := fun _ => h.1, n := fun _ => h.2, z := fun _ => h.2 }

theorem acts_x (h : op ∈ writersOfX ∧ op ∈ writersOfNZ) (v : Byte) (k : Cpu) :
    Acts op k (setNZ v { k with x := v }) :=
  { x := fun _ => h.1, n := fun _ => h.2, z := fun _ => h.2 }

theorem acts_y (h : op ∈ writersOfY ∧ op ∈ writersOfNZ) (v : Byte) (k : Cpu) :
    Acts op k (setNZ v { k with y := v }) :=
  { y := fun _ => h.1, n := fun _ => h.2, z := fun _ => h.2 }

theorem acts_adc (h : op ∈ writersOfA ∧ op ∈ writersOfC ∧ op ∈ writersOfV ∧ op ∈ writersOfNZ)
    (m : Byte) (k : Cpu) : Acts op k (adcEffect m k) :=
  { a := fun _ => h.1, c := fun _ => h.2.1, v := fun _ => h.2.2.1, n := fun _ => h.2.2.2, z := fun _ => h.2.2.2 }

theorem acts_sbc (h : op ∈ writersOfA ∧ op ∈ writersOfC ∧ op ∈ writersOfV ∧ op ∈ writersOfNZ)
    (m : Byte) (k : Cpu) : Acts op k (sbcEffect m k) :=
  { a := fun _ => h.1, c := fun _ => h.2.1, v := fun _ => h.2.2.1, n := fun _ => h.2.2.2, z := fun _ => h.2.2.2 }

theorem acts_compare (h : op ∈ writersOfC ∧ op ∈ writersOfNZ) (r m : Byte) (k : Cpu) :
    Acts op k (compareEffect r m k) :=
  { c := fun _ => h.1, n := fun _ => h.2, z := fun _ => h.2 }

theorem acts_bit (h : op ∈ writersOfV ∧ op ∈ writersOfNZ) (m : Byte) (k : Cpu) :
    Acts op k { k with z := decide (k.a &&& m = 0), n := m.getLsbD 7, v := m.getLsbD 6 } :=
  { z := fun _ => h.2, n := fun _ => h.2, v := fun _ => h.1 }

theorem acts_nz (h : op ∈ writersOfNZ) (v : Byte) (k : Cpu) : Acts op k (setNZ v k) :=
  { n := fun _ => h, z := fun _ => h }

theorem acts_shift (h : op ∈ writersOfC ∧ op ∈ writersOfNZ) (v : Byte) (b : Bool) (k : Cpu) :
    Acts op k (setNZ v { k with c := b }) :=
  { c := fun _ => h.1, n := fun _ => h.2, z := fun _ => h.2 }

theorem acts_shiftAcc (h : op ∈ writersOfA ∧ op ∈ writersOfC ∧ op ∈ writersOfNZ) (v : Byte) (b : Bool)
    (k : Cpu) : Acts op k (setNZ v { k with a := v, c := b }) :=
  { a := fun _ => h.1, c := fun _ => h.2.1, n := fun _ => h.2.2, z := fun _ => h.2.2 }

end Effects

/-- The read effects, named by what they write. -/
theorem loadA_actsOnCpu : ActsOnCpu loadA (fun m k => setNZ m { k with a := m }) := fun _ _ => rfl

theorem loadX_actsOnCpu : ActsOnCpu loadX (fun m k => setNZ m { k with x := m }) := fun _ _ => rfl

theorem loadY_actsOnCpu : ActsOnCpu loadY (fun m k => setNZ m { k with y := m }) := fun _ _ => rfl

theorem andA_actsOnCpu : ActsOnCpu andA (fun m k => setNZ (k.a &&& m) { k with a := k.a &&& m }) := fun _ _ => rfl

theorem oraA_actsOnCpu : ActsOnCpu oraA (fun m k => setNZ (k.a ||| m) { k with a := k.a ||| m }) := fun _ _ => rfl

theorem eorA_actsOnCpu : ActsOnCpu eorA (fun m k => setNZ (k.a ^^^ m) { k with a := k.a ^^^ m }) := fun _ _ => rfl

theorem compare_actsOnCpu (r : Cpu → Byte) :
    ActsOnCpu (fun m s => compare (r s.cpu) m s) (fun m k => compareEffect (r k) m k) :=
  fun m s => compare_eq (r s.cpu) m s

theorem branchCost_bounds (taken crossed : Bool) : 1 ≤ branchCost taken crossed - 1 ∧ branchCost taken crossed - 1 ≤ 6 := by
  cases taken <;> cases crossed <;> decide

theorem completes_of_branch {i : Instr} {s : State} {taken : Bool} {d : Byte} (h : exec i s = execBranch taken d s) :
    Completes i s :=
  completes_of_cpu { s.cpu with pc := if taken then s.cpu.pc + BitVec.signExtend 16 d else s.cpu.pc } h {} (branchCost_bounds taken _)

theorem completes_of_push {i : Instr} {s : State} {v : Byte} (h : exec i s = finish 3 (push v s))
    (hS : i.opcode ∈ writersOfS) : Completes i s := by
  have hcpu : (push v s).cpu = { s.cpu with s := (push v s).cpu.s } := by rw [(push_saved v s).1]
  exact completes_of_pushes h (Accessed.refl.push v) hcpu hS (push v s).cpu.pc 2 rfl (by decide)

theorem completes_of_incDec {i : Instr} {s : State} {f : Byte → Byte} {c : Nat} {a : Addr}
    (h : exec i s = execIncDec c a f s) (ha : i.operand = .src (.mem a)) (hnz : i.opcode ∈ writersOfNZ)
    (hc : 2 ≤ c ∧ c ≤ 7) : Completes i s :=
  completes_of_modify (h.trans (execIncDec_eq f c a s)) ha (fun _ k => acts_nz hnz _ k) hc

theorem completes_of_shiftMem {i : Instr} {s : State} {f : Byte → Bool → Shifted} {c : Nat} {a : Addr}
    (h : exec i s = execShiftMem c a f s) (ha : i.operand = .src (.mem a))
    (hw : i.opcode ∈ writersOfC ∧ i.opcode ∈ writersOfNZ) (hc : 2 ≤ c ∧ c ≤ 7) : Completes i s :=
  completes_of_modify (h.trans (execShiftMem_eq f c a s)) ha (fun _ k => acts_shift hw _ _ k) hc

theorem completes_jsr (w : Word) (s : State) : Completes (.jsr w) s := by
  have hcpu : (push16 (s.cpu.pc - 1) s).cpu = { s.cpu with s := (push16 (s.cpu.pc - 1) s).cpu.s } := by
    rw [(push16_saved (s.cpu.pc - 1) s).1]
  exact completes_of_pushes rfl (Accessed.refl.push16 _) hcpu (show (0x20 : Byte) ∈ writersOfS by decide) w 5 rfl
    (by decide)

theorem completes_pla (s : State) : Completes .pla s := by
  obtain ⟨-, -, -, -, h⟩ := pullsComplete
  exact completes_of_latch (n := 3) (setNZ (s.cell .ram (stackPlace (s.cpu.s + 1)))
      { s.cpu with a := s.cell .ram (stackPlace (s.cpu.s + 1)), s := s.cpu.s + 1 }) (h s).1
    { a := fun _ => by decide, s := fun _ => by decide, n := fun _ => by decide, z := fun _ => by decide } (by decide)

/-- The flags from the status byte `p`, with S and PC: what PLP and RTI leave (R36, R266, R299). -/
def pulledStatus (p sp : Byte) (pc : Word) (k : Cpu) : Cpu :=
  { k with n := p.getLsbD 7, v := p.getLsbD 6, d := p.getLsbD 3, i := p.getLsbD 2, z := p.getLsbD 1, c := p.getLsbD 0
           s := sp, pc := pc }

theorem acts_pulledStatus {op : Byte} (h : op ∈ writersOfS ∧ op ∈ writersOfC ∧ op ∈ writersOfNZ ∧ op ∈ writersOfI ∧
    op ∈ writersOfD ∧ op ∈ writersOfV) (p sp : Byte) (pc : Word) (k : Cpu) : Acts op k (pulledStatus p sp pc k) := by
  obtain ⟨hs, hc, hnz, hi, hd, hv⟩ := h
  exact { s := fun _ => hs, c := fun _ => hc, n := fun _ => hnz, z := fun _ => hnz, i := fun _ => hi, d := fun _ => hd
          v := fun _ => hv }

theorem completes_plp (s : State) : Completes .plp s := by
  obtain ⟨-, -, -, -, h⟩ := pullsComplete
  exact completes_of_latch (n := 3) (pulledStatus (s.cell .ram (stackPlace (s.cpu.s + 1))) (s.cpu.s + 1) s.cpu.pc s.cpu)
    (h s).2 (acts_pulledStatus (by decide) _ _ _ _) (by decide)

theorem completes_rti (s : State) : Completes .rti s := by
  obtain ⟨-, -, h⟩ := rtiCompletes
  exact completes_of_latch (n := 5) (pulledStatus (s.cell .ram (stackPlace (s.cpu.s + 1))) (s.cpu.s + 3)
      (mkWord (s.cell .ram (stackPlace (s.cpu.s + 3))) (s.cell .ram (stackPlace (s.cpu.s + 2)))) s.cpu)
    (h s) (acts_pulledStatus (by decide) _ _ _ _) (by decide)

theorem completes_rts (s : State) : Completes .rts s := by
  obtain ⟨-, -, -, h⟩ := subroutineCallsComplete
  exact completes_of_latch (n := 5) { s.cpu with
      s := s.cpu.s + 2
      pc := mkWord (s.cell .ram (stackPlace (s.cpu.s + 2))) (s.cell .ram (stackPlace (s.cpu.s + 1))) + 1 }
    (h s) { s := fun _ => by decide } (by decide)

theorem completes_jmpInd (w : Word) (s : State) : Completes (.jmpInd w) s := by
  obtain ⟨-, -, -, -, -, -, h⟩ := jumpsComplete w s
  refine ⟨_, h, ⟨.cpu _ ?_ ((Accessed.refl.read _).read _), {}, by simp, by simp⟩⟩
  rw [busRead_cpu, busRead_cpu]
  exact {}

/-- Every instruction but BRK completes, and does no more than `Ran` says: each by the shared meaning that its arm of `exec`
calls. -/
theorem completes_of_ne_brk (i : Instr) (hi : i ≠ .brk) (s : State) : Completes i s := by
  cases i
  case brk => exact absurd rfl hi
  case ldaImm | ldaZp | ldaZpx | ldaAbs | ldaAbsx | ldaAbsy | ldaIndx | ldaIndy =>
    refine completes_of_read rfl loadA_actsOnCpu (fun m k => acts_a ?_ m k) (by decide)
    all_goals dsimp only [Instr.opcode]; decide
  case ldxImm | ldxZp | ldxZpy | ldxAbs | ldxAbsy =>
    refine completes_of_read rfl loadX_actsOnCpu (fun m k => acts_x ?_ m k) (by decide)
    all_goals dsimp only [Instr.opcode]; decide
  case ldyImm | ldyZp | ldyZpx | ldyAbs | ldyAbsx =>
    refine completes_of_read rfl loadY_actsOnCpu (fun m k => acts_y ?_ m k) (by decide)
    all_goals dsimp only [Instr.opcode]; decide
  case adcImm | adcZp | adcZpx | adcAbs | adcAbsx | adcAbsy | adcIndx | adcIndy =>
    refine completes_of_read rfl adc_actsOnCpu (fun m k => acts_adc ?_ m k) (by decide)
    all_goals dsimp only [Instr.opcode]; decide
  case sbcImm | sbcZp | sbcZpx | sbcAbs | sbcAbsx | sbcAbsy | sbcIndx | sbcIndy =>
    refine completes_of_read rfl sbc_actsOnCpu (fun m k => acts_sbc ?_ m k) (by decide)
    all_goals dsimp only [Instr.opcode]; decide
  case andImm | andZp | andZpx | andAbs | andAbsx | andAbsy | andIndx | andIndy =>
    refine completes_of_read rfl andA_actsOnCpu (fun m k => acts_a ?_ _ k) (by decide)
    all_goals dsimp only [Instr.opcode]; decide
  case oraImm | oraZp | oraZpx | oraAbs | oraAbsx | oraAbsy | oraIndx | oraIndy =>
    refine completes_of_read rfl oraA_actsOnCpu (fun m k => acts_a ?_ _ k) (by decide)
    all_goals dsimp only [Instr.opcode]; decide
  case eorImm | eorZp | eorZpx | eorAbs | eorAbsx | eorAbsy | eorIndx | eorIndy =>
    refine completes_of_read rfl eorA_actsOnCpu (fun m k => acts_a ?_ _ k) (by decide)
    all_goals dsimp only [Instr.opcode]; decide
  case cmpImm | cmpZp | cmpZpx | cmpAbs | cmpAbsx | cmpAbsy | cmpIndx | cmpIndy =>
    refine completes_of_read (f := fun m s => compare s.cpu.a m s) rfl (compare_actsOnCpu Cpu.a)
      (fun m k => acts_compare ?_ k.a m k) (by decide)
    all_goals dsimp only [Instr.opcode]; decide
  case cpxImm | cpxZp | cpxAbs =>
    refine completes_of_read (f := fun m s => compare s.cpu.x m s) rfl (compare_actsOnCpu Cpu.x)
      (fun m k => acts_compare ?_ k.x m k) (by decide)
    all_goals dsimp only [Instr.opcode]; decide
  case cpyImm | cpyZp | cpyAbs =>
    refine completes_of_read (f := fun m s => compare s.cpu.y m s) rfl (compare_actsOnCpu Cpu.y)
      (fun m k => acts_compare ?_ k.y m k) (by decide)
    all_goals dsimp only [Instr.opcode]; decide
  case bitZp | bitAbs =>
    refine completes_of_read rfl bitTest_actsOnCpu (fun m k => acts_bit ?_ m k) (by decide)
    all_goals dsimp only [Instr.opcode]; decide
  case staZp | staZpx | staAbs | staAbsx | staAbsy | staIndx | staIndy | stxZp | stxZpy | stxAbs | styZp | styZpx | styAbs =>
    exact completes_of_store rfl rfl (by decide)
  case incZp | incZpx | incAbs | incAbsx =>
    refine completes_of_incDec (f := fun v => v + 1) rfl rfl ?_ (by decide)
    all_goals dsimp only [Instr.opcode]; decide
  case decZp | decZpx | decAbs | decAbsx =>
    refine completes_of_incDec (f := fun v => v - 1) rfl rfl ?_ (by decide)
    all_goals dsimp only [Instr.opcode]; decide
  case aslZp | aslZpx | aslAbs | aslAbsx | lsrZp | lsrZpx | lsrAbs | lsrAbsx | rolZp | rolZpx | rolAbs | rolAbsx | rorZp
      | rorZpx | rorAbs | rorAbsx =>
    refine completes_of_shiftMem rfl rfl ?_ (by decide)
    all_goals dsimp only [Instr.opcode]; decide
  case aslAcc =>
    exact completes_of_cpu _ (execShiftAcc_eq aslOf 2 s) (acts_shiftAcc (by decide) _ _ _) (by decide)
  case lsrAcc =>
    exact completes_of_cpu _ (execShiftAcc_eq lsrOf 2 s) (acts_shiftAcc (by decide) _ _ _) (by decide)
  case rolAcc =>
    exact completes_of_cpu _ (execShiftAcc_eq rolOf 2 s) (acts_shiftAcc (by decide) _ _ _) (by decide)
  case rorAcc =>
    exact completes_of_cpu _ (execShiftAcc_eq rorOf 2 s) (acts_shiftAcc (by decide) _ _ _) (by decide)
  case txa => exact completes_of_cpu (setNZ (s.cpu.x) { s.cpu with a := s.cpu.x }) rfl (acts_a (by decide) _ _) (by decide)
  case tya => exact completes_of_cpu (setNZ (s.cpu.y) { s.cpu with a := s.cpu.y }) rfl (acts_a (by decide) _ _) (by decide)
  case tax => exact completes_of_cpu (setNZ (s.cpu.a) { s.cpu with x := s.cpu.a }) rfl (acts_x (by decide) _ _) (by decide)
  case tsx => exact completes_of_cpu (setNZ (s.cpu.s) { s.cpu with x := s.cpu.s }) rfl (acts_x (by decide) _ _) (by decide)
  case inx => exact completes_of_cpu (setNZ (s.cpu.x + 1) { s.cpu with x := s.cpu.x + 1 }) rfl (acts_x (by decide) _ _) (by decide)
  case dex => exact completes_of_cpu (setNZ (s.cpu.x - 1) { s.cpu with x := s.cpu.x - 1 }) rfl (acts_x (by decide) _ _) (by decide)
  case tay => exact completes_of_cpu (setNZ (s.cpu.a) { s.cpu with y := s.cpu.a }) rfl (acts_y (by decide) _ _) (by decide)
  case iny => exact completes_of_cpu (setNZ (s.cpu.y + 1) { s.cpu with y := s.cpu.y + 1 }) rfl (acts_y (by decide) _ _) (by decide)
  case dey => exact completes_of_cpu (setNZ (s.cpu.y - 1) { s.cpu with y := s.cpu.y - 1 }) rfl (acts_y (by decide) _ _) (by decide)
  case txs => exact completes_of_cpu { s.cpu with s := s.cpu.x } rfl { s := fun _ => by decide } (by decide)
  case pha | php => exact completes_of_push rfl (by decide)
  case pla => exact completes_pla s
  case plp => exact completes_plp s
  case rti => exact completes_rti s
  case rts => exact completes_rts s
  case jmpAbs w => exact completes_of_cpu { s.cpu with pc := w } rfl {} (by decide)
  case nop => exact completes_of_cpu s.cpu rfl {} (by decide)
  case jmpInd w => exact completes_jmpInd w s
  case jsr w => exact completes_jsr w s
  case bcc | bcs | beq | bne | bmi | bpl | bvc | bvs => exact completes_of_branch rfl
  case clc => exact completes_of_cpu { s.cpu with c := false } rfl { c := fun _ => by decide } (by decide)
  case sec => exact completes_of_cpu { s.cpu with c := true } rfl { c := fun _ => by decide } (by decide)
  case cli => exact completes_of_cpu { s.cpu with i := false } rfl { i := fun _ => by decide } (by decide)
  case sei => exact completes_of_cpu { s.cpu with i := true } rfl { i := fun _ => by decide } (by decide)
  case cld => exact completes_of_cpu { s.cpu with d := false } rfl { d := fun _ => by decide } (by decide)
  case sed => exact completes_of_cpu { s.cpu with d := true } rfl { d := fun _ => by decide } (by decide)
  case clv => exact completes_of_cpu { s.cpu with v := false } rfl { v := fun _ => by decide } (by decide)

end Sys2Proof.Machine
end

section
/-! The statements over every instruction (60_exceptions.md R430, 10_state.md R30 to R38, 70 R736), and a mapper register's
write by its slot (62_mappers_cartridge.md R641 to R654). -/

namespace Sys2Proof.Machine

open Sys2Proof.Claims

section RomWrites

variable {s : State} {a : Word} {v : Byte}

theorem busWrite_of_rom (ha : 0x8000 ≤ a.toNat) : busWrite a v s = mapperWrite a v (s.setBusLatch v) :=
  if_pos ha

/-- A ROM address's slot is its bits 14, 13 and 0 (R641). -/
theorem and_slotMask (ha : 0x8000 ≤ a.toNat) :
    a &&& 0xE001#16 = 0x8000#16 ||| ((a.extractLsb' 13 2).setWidth 16 <<< 13) ||| (BitVec.ofBool (bit a 0)).setWidth 16 := by
  have h15 : a.getLsbD 15 = true := by
    rw [BitVec.getLsbD, Nat.testBit_eq_decide_div_mod_eq, decide_eq_true_eq]
    have := a.isLt
    omega
  ext i hi
  interval_cases i <;> simp [bit, ← BitVec.getLsbD_eq_getElem, h15]

/-- Bank data: `R[k]`, the others kept (R643). -/
theorem Mmc3.setBank_eq (m : Mmc3) (k : Nat) (hk : k < 8) (d : Byte) : m.setBank k d = { m with
    r0 := if k == 0 then d else m.r0
    r1 := if k == 1 then d else m.r1
    r2 := if k == 2 then d else m.r2
    r3 := if k == 3 then d else m.r3
    r4 := if k == 4 then d else m.r4
    r5 := if k == 5 then d else m.r5
    r6 := if k == 6 then d else m.r6
    r7 := if k == 7 then d else m.r7 } := by
  interval_cases k <;> rfl

/-- The scanline-IRQ variant's registers after a write, each by the slot that it takes (R641 to R653). -/
def Mmc3.afterSlot (m : Mmc3) (slot : Word) (d : Byte) : Mmc3 :=
  { bankSelect := if slot == 0x8000#16 then d else m.bankSelect
    r0 := if slot == 0x8001#16 && m.bankSelect.toNat % 8 == 0 then d else m.r0
    r1 := if slot == 0x8001#16 && m.bankSelect.toNat % 8 == 1 then d else m.r1
    r2 := if slot == 0x8001#16 && m.bankSelect.toNat % 8 == 2 then d else m.r2
    r3 := if slot == 0x8001#16 && m.bankSelect.toNat % 8 == 3 then d else m.r3
    r4 := if slot == 0x8001#16 && m.bankSelect.toNat % 8 == 4 then d else m.r4
    r5 := if slot == 0x8001#16 && m.bankSelect.toNat % 8 == 5 then d else m.r5
    r6 := if slot == 0x8001#16 && m.bankSelect.toNat % 8 == 6 then d else m.r6
    r7 := if slot == 0x8001#16 && m.bankSelect.toNat % 8 == 7 then d else m.r7
    mirrorBit := if slot == 0xA000#16 then d.getLsbD 0 else m.mirrorBit
    prgRamProtect := if slot == 0xA001#16 then d else m.prgRamProtect
    irqLatch := if slot == 0xC000#16 then d else m.irqLatch
    irqCounter := m.irqCounter
    irqReload := m.irqReload || (slot == 0xC001#16)
    irqEnabled := (m.irqEnabled || (slot == 0xE001#16)) && !(slot == 0xE000#16) }

theorem Mmc3.write_eq (m : Mmc3) (k : BitVec 2) (b : Bool) (d : Byte) : m.write k.toNat b d =
    m.afterSlot (0x8000#16 ||| (k.setWidth 16 <<< 13) ||| (BitVec.ofBool b).setWidth 16) d := by
  have hsel : (m.bankSelect.extractLsb' 0 3).toNat = m.bankSelect.toNat % 8 := by
    rw [BitVec.extractLsb'_toNat, Nat.shiftRight_zero]
  obtain rfl | rfl | rfl | rfl : k = 0 ∨ k = 1 ∨ k = 2 ∨ k = 3 := by decide +revert
  case inl =>
    cases b with
    | false => simp [Mmc3.write, Mmc3.afterSlot]
    | true =>
      simp only [Mmc3.write, hsel]
      rw [Mmc3.setBank_eq _ _ (Nat.mod_lt _ (by decide))]
      simp [Mmc3.afterSlot]
  all_goals cases b <;> simp [Mmc3.write, Mmc3.afterSlot, bit]

theorem Mmc3.write_slot (m : Mmc3) (ha : 0x8000 ≤ a.toNat) (d : Byte) :
    m.write (a.extractLsb' 13 2).toNat (bit a 0) d = m.afterSlot (a &&& 0xE001#16) d := by
  rw [Mmc3.write_eq, ← and_slotMask ha]

theorem busWrite_mmc3 {m : Mmc3} (ha : 0x8000 ≤ a.toNat) (hm : s.mapper.regs = .mmc3 m) : busWrite a v s = { s with
    busLatch := v
    mapper := { s.mapper with regs := .mmc3 (m.afterSlot (a &&& 0xE001#16) v) }
    cpu := { s.cpu with irqPending := s.cpu.irqPending && !isIrqAcknowledge a } } := by
  rw [busWrite_of_rom ha, ← Mmc3.write_slot m ha]
  simp only [mapperWrite, State.setBusLatch, hm]

theorem busWrite_mmc1 {m : Mmc1} (ha : 0x8000 ≤ a.toNat) (hm : s.mapper.regs = .mmc1 m) : busWrite a v s = { s with
    busLatch := v, mapper := { s.mapper with regs := .mmc1 (m.write a v) } } := by
  rw [busWrite_of_rom ha]
  simp only [mapperWrite, State.setBusLatch, hm]

theorem busWrite_nrom (ha : 0x8000 ≤ a.toNat) (hm : s.mapper.regs = .nrom) : busWrite a v s = { s with busLatch := v } := by
  rw [busWrite_of_rom ha]
  simp only [mapperWrite, State.setBusLatch, hm]

end RomWrites

/-- Settles O40: a write from $8000 is the mapper's, by the variant, and for the scanline-IRQ variant by the slot. -/
theorem romAddressWrites : Obligations.RomAddressWrites := by
  intro a v s ha
  dsimp only
  cases hr : s.mapper.regs with
  | nrom =>
    rw [busWrite_nrom ha hr]
    exact ⟨fun q i => State.cell_congr _ _ rfl rfl rfl rfl rfl rfl rfl q i, rfl, rfl, fun _ => rfl, nofun, nofun⟩
  | mmc1 m =>
    rw [busWrite_mmc1 ha hr]
    refine ⟨fun q i => State.cell_congr _ _ rfl rfl rfl rfl rfl rfl rfl q i, rfl, rfl, nofun, ?_, nofun⟩
    rintro _ ⟨⟩
    rfl
  | mmc3 m =>
    rw [busWrite_mmc3 ha hr]
    refine ⟨fun q i => State.cell_congr _ _ rfl rfl rfl rfl rfl rfl rfl q i, rfl, rfl, nofun, nofun, ?_⟩
    rintro _ ⟨⟩
    rfl

section EveryInstruction

variable {i : Instr} {s t : State}

/-- BRK is the sequence from the address after the byte it skips (45 R298). -/
theorem exec_brk (s : State) : exec .brk s = takeInterrupt .brk (s.setPc (s.cpu.pc + 1)) := rfl

theorem ran_brk (h : exec .brk s = .next t) : Ran .brk s t := by
  rw [exec_brk, takeInterrupt_saved (by decide)] at h
  split at h <;> cases h
  have hcpu : (pushReturn .brk (s.setPc (s.cpu.pc + 1))).cpu = { s.cpu with
      pc := s.cpu.pc + 1, s := (pushReturn .brk (s.setPc (s.cpu.pc + 1))).cpu.s } := by
    rw [pushReturn_cpu (by decide)]
    rfl
  have hpush : Accessed InRam s (pushReturn .brk (s.setPc (s.cpu.pc + 1))) :=
    (Accessed.refl.regs (t := s.setPc (s.cpu.pc + 1)) rfl {}).pushReturn .brk
  refine ⟨?_, { s := fun _ => by decide, i := fun _ => by decide }, (by decide : 1 ≤ 6), (by decide : 6 ≤ 6)⟩
  refine ((hpush.mono fun _ => Or.inl).latch (hiByte (vectorWord .brk (s.setPc (s.cpu.pc + 1))))).regs rfl ?_
  show SameLatches (pushReturn .brk (s.setPc (s.cpu.pc + 1))).cpu _
  rw [hcpu]
  exact {}

/-- What running any instruction that completes can do. -/
theorem exec_ran (h : exec i s = .next t) : Ran i s t := by
  by_cases hi : i = .brk
  · subst hi
    exact ran_brk h
  · obtain ⟨u, hu, hran⟩ := completes_of_ne_brk i hi s
    rw [hu] at h
    cases h
    exact hran

end EveryInstruction

/-- Settles O32: every instruction but BRK completes, and BRK by its vector's word. -/
theorem everyInstructionLegal : Obligations.EveryInstructionLegal := by
  intro i s
  by_cases hi : i = .brk
  · subst hi
    obtain ⟨-, -, h⟩ := brkCompletes
    obtain ⟨hgood, hbad⟩ := h s
    by_cases hw : vectorWord .brk s = 0xFFFF
    · obtain ⟨t, ht, -⟩ := hbad hw
      exact .inr ⟨rfl, hw, t, ht⟩
    · obtain ⟨t, ht, -⟩ := hgood hw
      exact .inl ⟨t, ht⟩
  · obtain ⟨t, ht, -⟩ := completes_of_ne_brk i hi s
    exact .inl ⟨t, ht⟩

/-- Settles O33, by what running any instruction can do. -/
theorem registerAndFlagWriters : Obligations.RegisterAndFlagWriters := by
  intro i s t h
  obtain ⟨ha, hx, hy, hs, hc, hz, hn, hi, hd, hv⟩ := (exec_ran h).touches
  exact ⟨ha, hx, hy, hs, hc, hz, hn, hi, hd, hv⟩

section Kept

/-! What no bus access and no register write of an instruction changes. -/

theorem keeps_eq {α : Type} (f : State → α) (x : α) (hr : ∀ u a, f (busRead a u).2 = f u)
    (hw : ∀ u a v, f (busWrite a v u) = f u) (hl : ∀ (u : State) b, f (u.setBusLatch b) = f u)
    (hc : ∀ (u : State) c, SameLatches u.cpu c → f { u with cpu := c } = f u) : Keeps (fun u => f u = x) where
  read a h := (hr _ a).trans h
  write a v h := (hw _ a v).trans h
  latch b h := (hl _ b).trans h
  cpu c hl h := (hc _ c hl).trans h

theorem keeps_launch (x : Launch) : Keeps (fun u => u.launch = x) :=
  keeps_eq State.launch x busRead_launch busWrite_launch (fun _ _ => rfl) (fun _ _ _ => rfl)

theorem keeps_faults (x : List FaultCause) : Keeps (fun u => u.faults = x) :=
  keeps_eq State.faults x busRead_faults busWrite_faults (fun _ _ => rfl) (fun _ _ _ => rfl)

end Kept

/-- Settles O34: the cost by `Ran`, each other field by what accesses keep. -/
theorem costsInRange : Obligations.CostsInRange := by
  intro i s t h
  obtain ⟨hacc, -, h1, h6⟩ := exec_ran h
  have kept {α : Type} (f : State → α) (hf : Keeps (fun u => f u = f s)) : f t = f s := hf.accessed hacc rfl
  refine ⟨Nat.succ_le_succ h1, Nat.succ_le_succ h6, ?_, ?_, kept _ (keeps_launch _), ?_, ?_, kept _ (keeps_faults _), ?_, ?_, ?_⟩
  · exact kept (fun u => u.cpu.unsupportedSeen) (keeps_eq _ _ (by simp) (by simp) (fun _ _ => rfl) fun _ _ h => h.unsupportedSeen)
  · exact kept (fun u => u.cpu.trace) (keeps_eq _ _ (by simp) (by simp) (fun _ _ => rfl) fun _ _ h => h.trace)
  · exact kept State.hostRequest (keeps_eq _ _ (by simp) (by simp) (fun _ _ => rfl) fun _ _ _ => rfl)
  · exact kept State.shutdown (keeps_eq _ _ (by simp) (by simp) (fun _ _ => rfl) fun _ _ _ => rfl)
  · exact kept State.stopped (keeps_eq _ _ (by simp) (by simp) (fun _ _ => rfl) fun _ _ _ => rfl)
  · exact kept (fun u => u.ppu.backFrame) (keeps_eq _ _ (by simp) (by simp) (fun _ _ => rfl) fun _ _ _ => rfl)
  · exact kept (fun u => u.ppu.publishedFrame) (keeps_eq _ _ (by simp) (by simp) (fun _ _ => rfl) fun _ _ _ => rfl)

section Latches

variable {s : State} {a : Word} {v : Byte}

/-- The ports are $2000 to $3FFF, by the address modulo 8 (R78). -/
theorem busSelect_of_isPort (s : State) (h : isPort a = true) : busSelect s a = .port (a.toNat % 8) := by
  simp only [isPort, Bool.and_eq_true, decide_eq_true_eq] at h
  rw [busSelect, if_neg (by omega), if_neg (by omega), if_neg (by omega), if_pos h.2]

/-- A write keeps a latched NMI: port 0 alone writes that latch, and only sets it (R404, R523). -/
theorem nmiPending_busWrite (h : s.cpu.nmiPending = true) : (busWrite a v s).cpu.nmiPending = true := by
  by_cases hp : ∃ p, busSelect s a = .port p
  · obtain ⟨p, hsel⟩ := hp
    rw [busWrite_of_port s a v hsel]
    by_cases hp : p = 0
    · subst hp
      show (s.cpu.nmiPending || _) = true
      rw [h, Bool.true_or]
    · obtain ⟨_, -, hn, -⟩ := portWrite_cases (s.setBusLatch v) p v
      exact (hn hp).trans h
  · rw [busWrite_nmiPending s a v (Bool.eq_false_iff.mpr fun hport => hp ⟨_, busSelect_of_isPort s hport⟩), h]

/-- The scanline-IRQ variant with its IRQ disabled (R652). -/
def IrqDisabled (u : State) : Prop := ∃ m, u.mapper.regs = .mmc3 m ∧ m.irqEnabled = false

theorem Mmc3.afterSlot_irqDisable (m : Mmc3) (d : Byte) : (m.afterSlot 0xE000#16 d).irqEnabled = false :=
  Bool.and_false _

/-- A write leaves the IRQ latch, or it is the IRQ-disable slot's (R652, R654). -/
theorem irqPending_busWrite (s : State) (a : Word) (v : Byte) :
    (busWrite a v s).cpu.irqPending = s.cpu.irqPending ∨
    (0x8000 ≤ a.toNat ∧ a &&& 0xE001#16 = 0xE000#16 ∧ (busWrite a v s).cpu.irqPending = false ∧
      IrqDisabled (busWrite a v s)) := by
  by_cases ha : 0x8000 ≤ a.toNat
  · cases hr : s.mapper.regs with
    | nrom => exact .inl (by rw [busWrite_nrom ha hr])
    | mmc1 m => exact .inl (by rw [busWrite_mmc1 ha hr])
    | mmc3 m =>
      rw [busWrite_mmc3 ha hr, isIrqAcknowledge]
      by_cases hslot : a &&& 0xE001#16 = 0xE000#16
      · rw [hslot]
        exact .inr ⟨ha, rfl, Bool.and_false _, _, rfl, Mmc3.afterSlot_irqDisable m v⟩
      · rw [beq_false_of_ne hslot]
        exact .inl (Bool.and_true _)
  · exact .inl (busWrite_irqPending s a v (Nat.lt_of_not_le ha)).1

theorem irqDisabled_busWrite (h : a.toNat < 0x8000 ∨ a &&& 0xE001#16 = 0xE000#16) (hs : IrqDisabled s) :
    IrqDisabled (busWrite a v s) := by
  obtain ⟨m, hm, hoff⟩ := hs
  by_cases ha : 0x8000 ≤ a.toNat
  · rw [busWrite_mmc3 ha hm, h.resolve_left (Nat.not_lt.mpr ha)]
    exact ⟨_, rfl, Mmc3.afterSlot_irqDisable m v⟩
  · exact ⟨m, (busWrite_irqPending s a v (Nat.lt_of_not_le ha)).2.trans hm, hoff⟩

/-- `i` has a memory operand in the IRQ-disable slot. -/
def AtIrqDisable (i : Instr) (s : State) : Prop :=
  ∃ m, i.operand = .src (.mem m) ∧ (locate m s).ea &&& 0xE001#16 = 0xE000#16

/-- Along an instruction's accesses the IRQ latch is as it was until the instruction writes the IRQ-disable slot, and the IRQ
is disabled from there on. -/
theorem irqPending_accessed {i : Instr} {t : State} (h : Accessed (WritesAt i s) s t) :
    t.cpu.irqPending = s.cpu.irqPending ∨ (t.cpu.irqPending = false ∧ IrqDisabled t ∧ AtIrqDisable i s) := by
  induction h with
  | refl => exact .inl rfl
  | read a _ ih =>
    rw [busRead_cpu]
    simpa only [IrqDisabled, busRead_mapper] using ih
  | latch b _ ih => exact ih
  | cpu c hc _ ih =>
    rw [hc.irqPending]
    exact ih
  | @write u a v ha _ ih =>
    rcases irqPending_busWrite u a v with hkeep | ⟨hrom, hslot, hclear, hoff⟩
    · rw [hkeep]
      refine ih.imp_right fun ⟨hq, hoff, hat⟩ => ⟨hq, irqDisabled_busWrite ?_ hoff, hat⟩
      obtain ⟨m, hm, hea⟩ := hat
      rcases ha with hram | ⟨m', hm', rfl⟩
      · exact .inl (Nat.lt_of_lt_of_le hram (by decide))
      · obtain rfl : m = m' := by simpa using hm.symm.trans hm'
        exact .inr hea
    · refine .inr ⟨hclear, hoff, ?_⟩
      rcases ha with hram | ⟨m, hm, rfl⟩
      · exact absurd hrom (Nat.not_le.mpr (Nat.lt_of_lt_of_le hram (by decide)))
      · exact ⟨m, hm, hslot⟩

end Latches

/-- Settles O14, by what an instruction's accesses do to each latch. -/
theorem latchesUnderInstructions : Obligations.LatchesUnderInstructions := by
  intro i s t h
  obtain ⟨hacc, -, -, -⟩ := exec_ran h
  have hnmi : Keeps (fun u => u.cpu.nmiPending = true) :=
    { read := fun a hu => by rwa [busRead_cpu]
      write := fun a v hu => nmiPending_busWrite hu
      latch := fun _ hu => hu
      cpu := fun c hc hu => hc.nmiPending.trans hu }
  refine ⟨hnmi.accessed hacc, fun hs => ?_, fun hs ht => ?_⟩
  · rcases irqPending_accessed hacc with hkeep | ⟨hclear, -⟩
    · rw [hkeep, hs]
    · exact hclear
  · rcases irqPending_accessed hacc with hkeep | ⟨-, hoff, hat⟩
    · rw [hs, ht] at hkeep
      exact absurd hkeep (by decide)
    · exact ⟨hoff, hat⟩

end Sys2Proof.Machine
end

section
/-! What every step keeps: the step as bus accesses, processor writes, PPU ticks and resets (70_reset_and_hazards.md R720 to
R722), and the invariants of Safety.lean each on its own. -/

namespace Sys2Proof.Machine

open Sys2Proof.Claims Sys2Proof.Safety

/-- What the bus's accesses and every write of the processor keep. -/
structure Kept (P : State → Prop) : Prop where
  read : ∀ {u} (a : Word), P u → P (busRead a u).2
  write : ∀ {u} (a : Word) (v : Byte), P u → P (busWrite a v u)
  latch : ∀ {u : State} (b : Byte), P u → P (u.setBusLatch b)
  cpu : ∀ {u : State} (c : Cpu), P u → P { u with cpu := c }

theorem Kept.keeps {P : State → Prop} (hP : Kept P) : Keeps P := ⟨hP.read, hP.write, hP.latch, fun c _ => hP.cpu c⟩

/-- `t` has all that accesses and processor writes keep of `s`. -/
def Reached (s t : State) : Prop := ∀ P, Kept P → P s → P t

section Reached

variable {s t u : State}

theorem Reached.trans (h : Reached s t) (k : Reached t u) : Reached s u := fun P hP hs => k P hP (h P hP hs)

theorem Accessed.reached {W : Word → Prop} (h : Accessed W s t) : Reached s t := fun _ hP hs => hP.keeps.accessed h hs

theorem reached_cpu (s : State) (c : Cpu) : Reached s { s with cpu := c } := fun _ hP hs => hP.cpu c hs

theorem reached_busRead (s : State) (a : Word) : Reached s (busRead a s).2 := fun _ hP hs => hP.read a hs

theorem reached_takeInterrupt {k : IntKind} (h : takeInterrupt k s = .next t) : Reached s t :=
  (accessed_takeInterrupt h).reached

theorem takeInterrupt_sleep {k : IntKind} (h : takeInterrupt k s = .next t) : t.cpu.sleep = 6 := by
  rw [takeInterrupt_eq] at h
  dsimp only at h
  split at h <;> cases h
  rfl

theorem reached_fetchOperand {f : Form} {g : FetchedInstr} (h : fetchOperand f s = .ok g) : Reached s g.st := by
  cases f with
  | f1 i =>
    cases h
    exact fun _ _ hs => hs
  | f2 k =>
    cases h
    exact (reached_busRead s _).trans (reached_cpu _ _)
  | f3 k =>
    rw [fetchOperand] at h
    split at h <;> cases h
    rename_i w u hw
    refine Reached.trans ?_ (reached_cpu u _)
    rw [readWord] at hw
    split at hw <;> cases hw
    exact (reached_busRead s _).trans (reached_busRead _ _)

theorem fetchExecute_next (h : fetchExecute s = .next t) : Reached s t ∧ t.cpu.sleep ≤ 6 := by
  have hop : Reached s (fetchOpcode s).2 := (reached_busRead s _).trans (reached_cpu _ _)
  unfold fetchExecute at h
  dsimp only at h
  split at h
  · unfold unregistered at h
    dsimp only at h
    split at h <;> cases h
    exact ⟨(hop.trans (reached_cpu _ _)).trans (reached_cpu _ _), (by decide : 1 ≤ 6)⟩
  · split at h
    · cases h
    · rename_i g hg
      cases hx : exec g.instr g.st with
      | next u =>
        rw [hx] at h
        cases h
        have hran := exec_ran hx
        exact ⟨((hop.trans (reached_fetchOperand hg)).trans hran.accessed.reached).trans (reached_cpu u _), hran.le_seven⟩
      | fault f => rw [hx] at h; cases h
      | refused r => rw [hx] at h; cases h

/-- A processor step reaches its next state by accesses and processor writes, and keeps the cost counter's bound (R40). -/
theorem cpuStep_next (h : cpuStep s = .next t) : Reached s t ∧ (s.cpu.sleep ≤ 6 → t.cpu.sleep ≤ 6) := by
  unfold cpuStep at h
  split at h
  · cases h
    exact ⟨reached_cpu s _, fun hs => (Nat.sub_le _ _).trans hs⟩
  · split at h
    · exact ⟨(reached_cpu s _).trans (reached_takeInterrupt h), fun _ => (takeInterrupt_sleep h).le⟩
    · split at h
      · exact ⟨reached_takeInterrupt h, fun _ => (takeInterrupt_sleep h).le⟩
      · obtain ⟨hr, hc⟩ := fetchExecute_next h
        exact ⟨hr, fun _ => hc⟩

end Reached

/-- What every step but a power-on keeps. -/
structure KeptByStep (P : State → Prop) : Prop extends Kept P where
  tick : ∀ {u}, P u → P (ppuTick u)
  reset : ∀ {u : State}, P u → P { u with ppu := u.ppu.reset, hostRequest := none, stopped := false }
  ram : ∀ {u : State}, P u → P { u with ram := [] }

theorem Kept.resetSequence {P : State → Prop} (hP : Kept P) {s t : State} (h : resetSequence s = .next t) (hs : P s) :
    P t := by
  obtain ⟨pc, rfl⟩ := resetSequence_next h
  exact hP.cpu _ hs

/-- A step keeps what its parts keep; a power-on is told of apart. -/
theorem KeptByStep.step {P : State → Prop} (hP : KeptByStep P) {s t : State} (h : step s = .next t) (hs : P s)
    (hpower : s.hostRequest = some .powerOn → P { powerOnState s.launch with shutdown := s.shutdown }) : P t := by
  rcases step_next_cases h with ⟨hr, h⟩ | ⟨-, h⟩ | ⟨-, h⟩ | ⟨-, -, rfl⟩ | ⟨-, -, h⟩
  · exact hP.resetSequence h (hpower hr)
  · exact hP.resetSequence h (hP.cpu _ (hP.ram (hP.reset hs)))
  · exact hP.resetSequence h (hP.cpu _ (hP.reset hs))
  · exact hs
  · exact (cpuStep_next h).1 P hP.toKept (hP.tick (hP.tick (hP.tick hs)))

theorem step_sleep {s t : State} (h : step s = .next t) (hs : s.cpu.sleep ≤ 6) : t.cpu.sleep ≤ 6 := by
  have hreset : ∀ {u : State}, Machine.resetSequence u = .next t → t.cpu.sleep ≤ 6 := fun hu => by
    obtain ⟨pc, rfl⟩ := resetSequence_next hu
    exact le_refl 6
  rcases step_next_cases h with ⟨-, h⟩ | ⟨-, h⟩ | ⟨-, h⟩ | ⟨-, -, rfl⟩ | ⟨-, -, h⟩
  · exact hreset h
  · exact hreset h
  · exact hreset h
  · exact hs
  · refine (cpuStep_next h).2 ?_
    have e : (threeDots s).cpu.sleep = s.cpu.sleep := congrArg (fun u => u.cpu.sleep) (ticked_threeDots s).eq
    rwa [e]

section Launch

/-- A component of the state outside the processor, the bus and the PPU's clock is kept by a step that is no power-on. -/
theorem keptByStep_launch (l : Launch) : KeptByStep (fun u => u.launch = l) where
  read a h := (busRead_launch _ a).trans h
  write a v h := (busWrite_launch _ a v).trans h
  latch _ h := h
  cpu _ h := h
  tick {u} h := (congrArg State.launch (ticked_ppuTick u).eq).trans h
  reset h := h
  ram h := h

theorem keptByStep_faults (l : List FaultCause) : KeptByStep (fun u => u.faults = l) where
  read a h := (busRead_faults _ a).trans h
  write a v h := (busWrite_faults _ a v).trans h
  latch _ h := h
  cpu _ h := h
  tick {u} h := (congrArg State.faults (ticked_ppuTick u).eq).trans h
  reset h := h
  ram h := h

end Launch

theorem step_launch {s t : State} (h : step s = .next t) : t.launch = s.launch :=
  (keptByStep_launch s.launch).step h rfl fun _ => rfl

/-- Settles O59: the launch holds the cartridge, and no part of a step writes it. -/
theorem cartridgeImmutable : Obligations.CartridgeImmutable := by
  intro s t h
  have hl := step_launch h
  have hcell : ∀ r, r = .prgRom ∨ r = .chrRom → ∀ i, t.cell r i = s.cell r i := by
    rintro r (rfl | rfl) i <;> simp only [State.cell, State.mem, hl]
  exact ⟨hl, hcell .prgRom (.inl rfl), hcell .chrRom (.inr rfl)⟩

theorem atLoopEnd_of_faults {t : State} (loop : Word) (h : t.faults ≠ []) : atLoopEnd loop t = false := by
  have he : t.faults.isEmpty = false := by rwa [List.isEmpty_eq_false_iff]
  simp [atLoopEnd, he]

/-- Settles O6: the move by the host's request, its outcome surfaced; faults by what a step keeps, and by what a fault
records. -/
theorem stepIsTickOrReset : Obligations.StepIsTickOrReset := by
  intro s
  have hstep : step s = surfaced (machineMove s) := handleOutcome_eq_surfaced _
  refine ⟨fun hr => ?_, fun hr => ?_, fun hr => ?_, fun hr hs => ?_, fun hr hs => ?_, fun hr t h => ?_,
    fun f t loop h ht => ?_, fun f t loop h ht => ?_⟩
  · rw [hstep, machineMove, hr]
  · rw [hstep, machineMove, hr]
  · rw [hstep, machineMove, hr]
  · rw [hstep, machineMove, hr]
    exact congrArg surfaced (if_pos hs)
  · rw [hstep, machineMove_of_tick hr hs]
    rfl
  · exact (keptByStep_faults s.faults).step h rfl fun hp => absurd hp hr
  · exact atLoopEnd_of_faults loop (handleOutcome_after h ht)
  · exact atLoopEnd_of_faults loop (handleOutcome_after h ht)

end Sys2Proof.Machine
end

section
/-! One PPU tick, field by field (61_ppu.md R550 to R580): what a dot's actions leave in the PPU, in the two latches and in the
mapper. The statements about ticks read their fields off these equations. -/

namespace Sys2Proof.Machine

open Sys2Proof.Claims

/-- A dot at which the background and the sprites are rendered (R552). -/
def Ppu.rendering (p : Ppu) : Bool := renderingLine p.scanline && p.renderingEnabled

/-- Where in the palette the pixel of a dot lies, of the PPU `q` after the dot's shift (R566 to R568). -/
def pixelOffset (q : Ppu) : Nat :=
  if q.renderingEnabled then
    composeOffset (backgroundPixel q (q.dot - 1)) (backgroundPalette q) (spriteAt q (q.dot - 1)) (q.dot - 1)
  else 0

/-- The frame after a dot's pixel (R566). -/
def drawnFrame (s : State) (q : Ppu) : Frame :=
  if q.scanline < 240 ∧ 1 ≤ q.dot ∧ q.dot ≤ 256 then
    framePut q.backFrame (q.scanline * 256 + (q.dot - 1)) (colourOf (ppuRead s (BitVec.ofNat 14 (0x3F00 + pixelOffset q))))
  else q.backFrame

/-- A dot's pixel is the sprite-0 hit (R569), of the PPU after the dot's shift. -/
def hitsSpriteZero (q : Ppu) : Bool :=
  visibleLine q.scanline && 1 ≤ q.dot && q.dot ≤ 256 && q.renderingEnabled &&
    spriteZeroAt (backgroundPixel q (q.dot - 1)) (spriteAt q (q.dot - 1)) (q.dot - 1)

/-- The PPU with the background registers of a dot (R557, R558). -/
def shiftedPpu (p : Ppu) : Ppu := if p.rendering then shiftAndReload p else p

/-- `v` after a dot of rendering (R559 to R562). -/
def scrolledV (p : Ppu) : VramAddr :=
  (scrollActions { p with v := if fetchDot p.dot = true ∧ p.dot % 8 = 0 then incCoarseX p.v else p.v }).v

/-- The PPU after a dot's actions, before the counters move on (R580). -/
def dotPpu (s : State) : Ppu :=
  let p := s.ppu
  { p with
    bgPatLo := (shiftedPpu p).bgPatLo
    bgPatHi := (shiftedPpu p).bgPatHi
    bgAtLo := (shiftedPpu p).bgAtLo
    bgAtHi := (shiftedPpu p).bgAtHi
    v := if p.rendering then scrolledV p else p.v
    ntLatch := if p.rendering = true ∧ fetchDot p.dot = true ∧ p.dot % 8 = 2
      then ppuRead s (nametableAddr p.v) else p.ntLatch
    atLatch := if p.rendering = true ∧ fetchDot p.dot = true ∧ p.dot % 8 = 4
      then attributeBits p.v (ppuRead s (attributeAddr p.v)) else p.atLatch
    patLoLatch := if p.rendering = true ∧ fetchDot p.dot = true ∧ p.dot % 8 = 6
      then ppuRead s (patternAddr p 0) else p.patLoLatch
    patHiLatch := if p.rendering = true ∧ fetchDot p.dot = true ∧ p.dot % 8 = 0
      then ppuRead s (patternAddr p 1) else p.patHiLatch
    backFrame := drawnFrame s (shiftedPpu p)
    publishedFrame := if p.scanline = 240 ∧ p.dot = 0 then p.backFrame else p.publishedFrame
    secondary := if p.rendering = true ∧ p.dot = 1 then []
      else if p.rendering = true ∧ p.dot = 257 ∧ visibleLine p.scanline = true then (spritesInRange s).take 8
      else p.secondary
    sprites := if p.rendering = true ∧ p.dot = 321 then p.secondary.map (fetchSprite s) else p.sprites
    vblank := if p.scanline = 241 ∧ p.dot = 1 then true else if p.scanline = 261 ∧ p.dot = 1 then false else p.vblank
    sprite0Hit := (!decide (p.scanline = 261 ∧ p.dot = 1) && p.sprite0Hit) || hitsSpriteZero (shiftedPpu p)
    spriteOverflow := (!decide (p.scanline = 261 ∧ p.dot = 1) && p.spriteOverflow) ||
      (p.rendering && decide (p.dot = 257) && visibleLine p.scanline && decide (8 < (spritesInRange s).length)) }

section Actions

variable (s : State)

theorem pixelStep_hit : (pixelStep s).ppu.sprite0Hit = (s.ppu.sprite0Hit || hitsSpriteZero s.ppu) := by
  unfold pixelStep outputPixel hitsSpriteZero
  by_cases hd : (visibleLine s.ppu.scanline && decide (1 ≤ s.ppu.dot) && decide (s.ppu.dot ≤ 256)) = true
  · rw [if_pos hd, hd, Bool.true_and]
    dsimp only
    by_cases hr : s.ppu.renderingEnabled = true
    · rw [if_pos hr, hr]
      rfl
    · rw [if_neg hr, Bool.eq_false_iff.mpr hr]
      exact (Bool.or_false _).symm
  · rw [if_neg hd, Bool.eq_false_iff.mpr hd]
    simp

theorem pixelStep_eq_drawn : pixelStep s = s.setPpu { s.ppu with
    backFrame := drawnFrame s s.ppu
    sprite0Hit := s.ppu.sprite0Hit || hitsSpriteZero s.ppu } := by
  obtain ⟨hit, e⟩ := pixelStep_eq s
  have hhit : hit = (s.ppu.sprite0Hit || hitsSpriteZero s.ppu) := by
    rw [← pixelStep_hit, e]
    rfl
  rw [e, hhit, pixelStep_backFrame]
  rfl

theorem spriteActions_overflow : (spriteActions s).ppu.spriteOverflow = (s.ppu.spriteOverflow ||
    (decide (s.ppu.dot = 257) && visibleLine s.ppu.scanline && decide (8 < (spritesInRange s).length))) := by
  unfold spriteActions
  by_cases h1 : s.ppu.dot = 1
  · rw [if_pos h1, h1]
    simp
  · rw [if_neg h1]
    by_cases h2 : s.ppu.dot = 257 ∧ visibleLine s.ppu.scanline = true
    · rw [if_pos h2, h2.1, h2.2]
      simp [evaluateSprites]
    · rw [if_neg h2]
      have hoff : (decide (s.ppu.dot = 257) && visibleLine s.ppu.scanline) = false := by simpa using h2
      rw [hoff]
      split <;> simp

/-- The state in which a rendering dot evaluates sprites: as the dot began, but for the background, the pixel and `v`. -/
theorem renderActions_sprites : ∃ w : State, SameView s w ∧ w.ppu.dot = s.ppu.dot ∧
    w.ppu.spriteOverflow = s.ppu.spriteOverflow ∧
    w.ppu.sprite0Hit = (s.ppu.sprite0Hit || hitsSpriteZero (shiftAndReload s.ppu)) ∧
    renderActions s = scanlineHook (spriteActions w) := by
  have hhit := pixelStep_hit (s.setPpu (shiftAndReload s.ppu))
  refine ⟨_, ?_, ?_, ?_, ?_, rfl⟩ <;>
    simp only [State.setPpu_ppu, scrollActions, backgroundFetch_eq]
  · rw [pixelStep_eq_drawn, shiftAndReload_eq]
    exact ⟨rfl, rfl, rfl, rfl, rfl, rfl, rfl⟩
  · rw [pixelStep_eq_drawn, shiftAndReload_eq]
    rfl
  · rw [pixelStep_eq_drawn, shiftAndReload_eq]
    rfl
  · rw [hhit, shiftAndReload_eq]
    rfl

theorem renderActions_hit :
    (renderActions s).ppu.sprite0Hit = (s.ppu.sprite0Hit || hitsSpriteZero (shiftAndReload s.ppu)) := by
  obtain ⟨w, -, -, -, hhit, e⟩ := renderActions_sprites s
  obtain ⟨ov, e'⟩ := spriteActions_eq w
  rw [e, scanlineHook_ppu, e', ← hhit]
  rfl

theorem renderActions_overflow : (renderActions s).ppu.spriteOverflow = (s.ppu.spriteOverflow ||
    (decide (s.ppu.dot = 257) && visibleLine s.ppu.scanline && decide (8 < (spritesInRange s).length))) := by
  obtain ⟨w, hw, hdot, hov, -, e⟩ := renderActions_sprites s
  rw [e, scanlineHook_ppu, spriteActions_overflow, hdot, hov, hw.scanline, hw.spritesInRange]

/-- The flags of a dot, and the NMI latch that its vblank sets (R575, R577). -/
theorem flagActions_eq : flagActions s = { s with
    ppu := { s.ppu with
      vblank := if s.ppu.scanline = 241 ∧ s.ppu.dot = 1 then true
        else if s.ppu.scanline = 261 ∧ s.ppu.dot = 1 then false else s.ppu.vblank
      sprite0Hit := !decide (s.ppu.scanline = 261 ∧ s.ppu.dot = 1) && s.ppu.sprite0Hit
      spriteOverflow := !decide (s.ppu.scanline = 261 ∧ s.ppu.dot = 1) && s.ppu.spriteOverflow }
    cpu := { s.cpu with
      nmiPending := s.cpu.nmiPending || (decide (s.ppu.scanline = 241 ∧ s.ppu.dot = 1) && bit s.ppu.ctrl 7) } } := by
  unfold flagActions
  by_cases h241 : s.ppu.scanline = 241 ∧ s.ppu.dot = 1
  · have h261 : ¬ (s.ppu.scanline = 261 ∧ s.ppu.dot = 1) := by omega
    simp only [if_pos h241, decide_eq_false h261, decide_eq_true h241, Bool.not_false, Bool.true_and]
    rfl
  · rw [if_neg h241]
    by_cases h261 : s.ppu.scanline = 261 ∧ s.ppu.dot = 1
    · simp only [if_pos h261, if_neg h241, decide_eq_true h261, decide_eq_false h241, Bool.not_true, Bool.false_and,
        Bool.or_false]
      rfl
    · simp only [if_neg h261, if_neg h241, decide_eq_false h261, decide_eq_false h241, Bool.not_false, Bool.false_and,
        Bool.true_and, Bool.or_false]

/-- The state in which a dot renders: its flags set and the frame published (R570). -/
def flagged (s : State) : State := (flagActions s).setPpu (publishFrame (flagActions s).ppu)

theorem flagged_eq : flagged s = { s with
    ppu := { s.ppu with
      vblank := if s.ppu.scanline = 241 ∧ s.ppu.dot = 1 then true
        else if s.ppu.scanline = 261 ∧ s.ppu.dot = 1 then false else s.ppu.vblank
      sprite0Hit := !decide (s.ppu.scanline = 261 ∧ s.ppu.dot = 1) && s.ppu.sprite0Hit
      spriteOverflow := !decide (s.ppu.scanline = 261 ∧ s.ppu.dot = 1) && s.ppu.spriteOverflow
      publishedFrame := if s.ppu.scanline = 240 ∧ s.ppu.dot = 0 then s.ppu.backFrame else s.ppu.publishedFrame }
    cpu := { s.cpu with
      nmiPending := s.cpu.nmiPending || (decide (s.ppu.scanline = 241 ∧ s.ppu.dot = 1) && bit s.ppu.ctrl 7) } } := by
  rw [flagged, flagActions_eq]
  unfold publishFrame
  dsimp only
  by_cases h : s.ppu.scanline = 240 ∧ s.ppu.dot = 0
  · rw [if_pos h, if_pos h]
    rfl
  · rw [if_neg h, if_neg h]
    rfl

theorem dotActions_eq : dotActions s =
    if s.ppu.rendering then renderActions (flagged s) else pixelStep (flagged s) := by
  have hr : (flagged s).ppu.rendering = s.ppu.rendering := by
    rw [flagged_eq]
    rfl
  rw [← hr]
  rfl

theorem sameView_flagged : SameView s (flagged s) := by
  rw [flagged_eq]
  exact ⟨rfl, rfl, rfl, rfl, rfl, rfl, rfl⟩

/-- What a dot's actions leave in the PPU. -/
theorem dotActions_ppu : (dotActions s).ppu = dotPpu s := by
  have hv := sameView_flagged s
  rw [dotActions_eq]
  by_cases hr : s.ppu.rendering = true
  · rw [if_pos hr]
    obtain ⟨ov, hit, e⟩ := renderActions_ppu (flagged s)
    have hhit := renderActions_hit (flagged s)
    have hov := renderActions_overflow (flagged s)
    rw [e] at hhit hov
    dsimp only at hhit hov
    rw [e, hhit, hov, pixelStep_eq_drawn, hv.spritesInRange, hv.fetchSprite]
    simp only [shiftAndReload_eq, flagged_eq, State.setPpu_ppu, dotPpu, shiftedPpu, hr, if_true, true_and, Bool.true_and]
    rfl
  · rw [if_neg hr, pixelStep_eq_drawn]
    simp only [flagged_eq, State.setPpu_ppu, dotPpu, shiftedPpu, hr, Bool.false_eq_true, if_false, false_and, Bool.false_and,
      Bool.or_false]
    rfl

/-- Beside the PPU, a rendering dot's actions are the mapper's hook at dot 260 (R571). -/
theorem renderActions_hook : ∃ p, renderActions s = (if s.ppu.dot = 260 then onScanline s else s).setPpu p := by
  have hw : ∃ p : Ppu, p.dot = s.ppu.dot ∧ renderActions s = scanlineHook (s.setPpu p) := by
    unfold renderActions
    dsimp only
    rw [pixelStep_eq_drawn, backgroundFetch_eq]
    obtain ⟨ov, e⟩ := spriteActions_eq (((((s.setPpu (shiftAndReload s.ppu)).setPpu _).setPpu _)).setPpu _)
    rw [e]
    exact ⟨_, by rw [shiftAndReload_eq]; rfl, rfl⟩
  obtain ⟨p, hdot, e⟩ := hw
  refine ⟨p, ?_⟩
  rw [e, scanlineHook, State.setPpu_ppu, hdot]
  split
  · unfold onScanline
    rw [State.setPpu_mapper]
    cases s.mapper.regs <;> rfl
  · rfl

/-- `on_scanline()` reads the mapper and the IRQ latch alone (R655). -/
theorem onScanline_congr {s t : State} (hm : t.mapper = s.mapper) (hq : t.cpu.irqPending = s.cpu.irqPending) :
    (onScanline t).mapper = (onScanline s).mapper ∧ (onScanline t).cpu.irqPending = (onScanline s).cpu.irqPending := by
  unfold onScanline
  rw [hm]
  cases s.mapper.regs with
  | mmc3 r => exact ⟨rfl, by rw [hq]⟩
  | _ => exact ⟨hm, hq⟩

theorem onScanline_nmi : (onScanline s).cpu.nmiPending = s.cpu.nmiPending := by
  unfold onScanline
  split <;> rfl

theorem dotActions_hook : (dotActions s).mapper =
      (if s.ppu.rendering = true ∧ s.ppu.dot = 260 then onScanline s else s).mapper ∧
    (dotActions s).cpu.irqPending =
      (if s.ppu.rendering = true ∧ s.ppu.dot = 260 then onScanline s else s).cpu.irqPending := by
  have hm : (flagged s).mapper = s.mapper := by rw [flagged_eq]
  have hq : (flagged s).cpu.irqPending = s.cpu.irqPending := by rw [flagged_eq]
  have hd : (flagged s).ppu.dot = s.ppu.dot := by rw [flagged_eq]
  rw [dotActions_eq]
  by_cases hr : s.ppu.rendering = true
  · obtain ⟨p, e⟩ := renderActions_hook (flagged s)
    rw [if_pos hr, e, hd]
    by_cases h260 : s.ppu.dot = 260
    · rw [if_pos h260, if_pos ⟨hr, h260⟩]
      exact onScanline_congr hm hq
    · rw [if_neg h260, if_neg (fun h => h260 h.2)]
      exact ⟨hm, hq⟩
  · rw [if_neg hr, if_neg (fun h => hr h.1), pixelStep_eq_drawn]
    exact ⟨hm, hq⟩

theorem dotActions_nmi : (dotActions s).cpu.nmiPending =
    (s.cpu.nmiPending || (decide (s.ppu.scanline = 241 ∧ s.ppu.dot = 1) && bit s.ppu.ctrl 7)) := by
  have hn : (flagged s).cpu.nmiPending =
      (s.cpu.nmiPending || (decide (s.ppu.scanline = 241 ∧ s.ppu.dot = 1) && bit s.ppu.ctrl 7)) := by rw [flagged_eq]
  rw [dotActions_eq, ← hn]
  split
  · obtain ⟨p, e⟩ := renderActions_hook (flagged s)
    rw [e]
    split
    · exact onScanline_nmi _
    · rfl
  · rw [pixelStep_eq_drawn]
    rfl

/-- What a tick leaves in the PPU: the dot's actions, then the counters' advance. -/
theorem ppuTick_ppu_eq : (ppuTick s).ppu = advanceDot (dotPpu s) :=
  congrArg advanceDot (dotActions_ppu s)

end Actions

theorem rendering_iff (p : Ppu) : p.rendering = true ↔
    (p.scanline < 240 ∨ p.scanline = 261) ∧ (p.mask.getLsbD 3 = true ∨ p.mask.getLsbD 4 = true) := by
  simp [Ppu.rendering, renderingLine, Ppu.renderingEnabled, bit]

/-- Settles O47: the hook of a rendering dot 260, and all that a tick can change. (The model has a `scanlineHook` of its own.) -/
theorem Tick.scanlineHook : Obligations.ScanlineHook := by
  intro s hook t
  have e := ticked_ppuTick s
  obtain ⟨hm, hq⟩ := dotActions_hook s
  have hiff : hook ↔ s.ppu.rendering = true ∧ s.ppu.dot = 260 := by
    simp only [hook, rendering_iff, Bool.or_eq_true]
    exact And.comm
  refine ⟨fun h => ?_, fun h => ?_, fun h => ?_, fun m h => ?_, fun r i => ?_, e.eq⟩
  · rw [if_pos (hiff.mp h)] at hm hq
    exact ⟨hm, hq⟩
  · rw [if_neg (fun k => h (hiff.mpr k))] at hm hq
    exact ⟨hm, hq⟩
  · rw [onScanline, h]
  · rw [onScanline, h]
  · exact State.cell_congr _ _ (by rw [e.eq]) (by rw [e.eq]) (by rw [e.eq]) e.vram e.palette e.oam (by rw [e.eq]) r i

section Scroll

variable (v t : VramAddr)

/-- Coarse X, coarse Y, fine Y and the two nametable bits of a VRAM address (R508). -/
def HasFields (u : VramAddr) (x y f : Nat) (h k : Bool) : Prop :=
  (u.extractLsb' 0 5).toNat = x ∧ (u.extractLsb' 5 5).toNat = y ∧ (u.extractLsb' 12 3).toNat = f ∧
    u.getLsbD 10 = h ∧ u.getLsbD 11 = k

/-- The fields as arithmetic of the address. -/
theorem hasFields_iff {u : VramAddr} {x y f : Nat} {h k : Bool} : HasFields u x y f h k ↔
    u.toNat % 32 = x ∧ u.toNat / 32 % 32 = y ∧ u.toNat / 4096 % 8 = f ∧
      decide (u.toNat / 1024 % 2 = 1) = h ∧ decide (u.toNat / 2048 % 2 = 1) = k := by
  simp only [HasFields, BitVec.extractLsb'_toNat, Nat.shiftRight_eq_div_pow, BitVec.getLsbD,
    Nat.testBit_eq_decide_div_mod_eq]
  norm_num

/-- The fields of `v` itself. -/
theorem hasFields_self : HasFields v (v.extractLsb' 0 5).toNat (v.extractLsb' 5 5).toNat (v.extractLsb' 12 3).toNat
    (v.getLsbD 10) (v.getLsbD 11) := ⟨rfl, rfl, rfl, rfl, rfl⟩

theorem coarseX_full : v &&& 0x001F#15 = 31 ↔ (v.extractLsb' 0 5).toNat = 31 := by
  have hand : (v &&& 0x001F#15).toNat = v.toNat % 32 := by
    rw [BitVec.toNat_and]
    exact Nat.and_two_pow_sub_one_eq_mod v.toNat 5
  have hfield : (v.extractLsb' 0 5).toNat = v.toNat % 32 := (hasFields_iff.mp (hasFields_self v)).1.symm
  rw [← BitVec.toNat_inj, hand, hfield]
  rfl

theorem hasFields_add {v : VramAddr} {x y f : Nat} {h k : Bool} (hv : HasFields v x y f h k) :
    (x < 31 → HasFields (v + 1#15) (x + 1) y f h k) ∧ (y < 31 → HasFields (v + 0x0020#15) x (y + 1) f h k) ∧
    (f < 7 → HasFields (v + 0x1000#15) x y (f + 1) h k) := by
  have hlt := v.isLt
  simp only [hasFields_iff] at hv ⊢
  obtain ⟨rfl, rfl, rfl, rfl, rfl⟩ := hv
  simp only [BitVec.toNat_add, decide_eq_decide]
  norm_num
  omega

theorem hasFields_incCoarseX_wrap :
    HasFields ((v &&& ~~~0x001F#15) ^^^ 0x0400#15) 0 (v.extractLsb' 5 5).toNat (v.extractLsb' 12 3).toNat
      (!v.getLsbD 10) (v.getLsbD 11) := by
  refine ⟨congrArg BitVec.toNat (a₂ := 0#5) ?_, congrArg _ ?_, congrArg _ ?_, by simp, by simp⟩ <;>
    (ext i hi; interval_cases i <;> simp)

/-- Fine Y cleared. -/
theorem hasFields_clearFineY : HasFields (v &&& ~~~0x7000#15) (v.extractLsb' 0 5).toNat (v.extractLsb' 5 5).toNat 0
    (v.getLsbD 10) (v.getLsbD 11) := by
  refine ⟨congrArg _ ?_, congrArg _ ?_, congrArg BitVec.toNat (a₂ := 0#3) ?_, by simp, by simp⟩ <;>
    (ext i hi; interval_cases i <;> simp)

/-- Coarse Y cleared. -/
theorem hasFields_clearCoarseY : HasFields (v &&& ~~~0x03E0#15) (v.extractLsb' 0 5).toNat 0 (v.extractLsb' 12 3).toNat
    (v.getLsbD 10) (v.getLsbD 11) := by
  refine ⟨congrArg _ ?_, congrArg BitVec.toNat (a₂ := 0#5) ?_, congrArg _ ?_, by simp, by simp⟩ <;>
    (ext i hi; interval_cases i <;> simp)

theorem hasFields_flipVertical : HasFields (v ^^^ 0x0800#15) (v.extractLsb' 0 5).toNat (v.extractLsb' 5 5).toNat
    (v.extractLsb' 12 3).toNat (v.getLsbD 10) (!v.getLsbD 11) := by
  refine ⟨congrArg _ ?_, congrArg _ ?_, congrArg _ ?_, by simp, by simp⟩ <;>
    (ext i hi; interval_cases i <;> simp)

theorem hasFields_copyX : HasFields (copyX v t) (t.extractLsb' 0 5).toNat (v.extractLsb' 5 5).toNat
    (v.extractLsb' 12 3).toNat (t.getLsbD 10) (v.getLsbD 11) := by
  refine ⟨congrArg _ ?_, congrArg _ ?_, congrArg _ ?_, by simp [copyX, setBits], by simp [copyX, setBits]⟩ <;>
    (ext i hi; interval_cases i <;> simp [copyX, setBits])

theorem hasFields_copyY : HasFields (copyY v t) (v.extractLsb' 0 5).toNat (t.extractLsb' 5 5).toNat
    (t.extractLsb' 12 3).toNat (v.getLsbD 10) (t.getLsbD 11) := by
  refine ⟨congrArg _ ?_, congrArg _ ?_, congrArg _ ?_, by simp [copyY, setBits], by simp [copyY, setBits]⟩ <;>
    (ext i hi; interval_cases i <;> simp [copyY, setBits])

end Scroll

/-- What a tick leaves outside the frames, the lists, the fetches and the flags. -/
theorem ppuTick_scroll (s : State) :
    (ppuTick s).ppu.v = (if s.ppu.rendering then scrolledV s.ppu else s.ppu.v) ∧
    (ppuTick s).ppu.t = s.ppu.t ∧ (ppuTick s).ppu.x = s.ppu.x ∧ (ppuTick s).ppu.w = s.ppu.w ∧
    (ppuTick s).ppu.ctrl = s.ppu.ctrl ∧ (ppuTick s).ppu.mask = s.ppu.mask ∧ (ppuTick s).ppu.oamAddr = s.ppu.oamAddr ∧
    (ppuTick s).ppu.readBuffer = s.ppu.readBuffer ∧ (ppuTick s).ppu.ioLatch = s.ppu.ioLatch := by
  obtain ⟨l, d, o, e⟩ := advanceDot_eq (dotPpu s)
  rw [ppuTick_ppu_eq, e]
  exact ⟨rfl, rfl, rfl, rfl, rfl, rfl, rfl, rfl, rfl⟩

/-- Settles O48: the increments and copies field by field, and a tick's `v` by the dots of R559 to R562. -/
theorem scrollIncrements : Obligations.ScrollIncrements := by
  intro v t
  dsimp only
  refine ⟨?_, ?_, hasFields_copyX v t, hasFields_copyY v t, fun s => ?_⟩
  · by_cases hx : (v.extractLsb' 0 5).toNat = 31
    · rw [if_pos hx, incCoarseX, if_pos ((coarseX_full v).mpr hx)]
      exact hasFields_incCoarseX_wrap v
    · have hlt : (v.extractLsb' 0 5).toNat < 32 := (v.extractLsb' 0 5).isLt
      rw [if_neg hx, incCoarseX, if_neg (fun h => hx ((coarseX_full v).mp h))]
      exact (hasFields_add (hasFields_self v)).1 (by omega)
  · unfold incY
    dsimp only
    by_cases hf : (v.extractLsb' 12 3).toNat < 7
    · rw [if_pos hf, if_pos hf]
      exact (hasFields_add (hasFields_self v)).2.2 hf
    · rw [if_neg hf, if_neg hf]
      obtain ⟨h1, h2, h3, h4, h5⟩ := hasFields_clearFineY v
      have hclear := hasFields_clearCoarseY (v &&& ~~~0x7000#15)
      rw [h1, h3, h4, h5] at hclear
      by_cases h29 : (v.extractLsb' 5 5).toNat = 29
      · have hflip := hasFields_flipVertical ((v &&& ~~~0x7000#15) &&& ~~~0x03E0#15)
        obtain ⟨g1, g2, g3, g4, g5⟩ := hclear
        rw [g1, g2, g3, g4, g5] at hflip
        rw [if_pos h29, if_pos h29]
        exact hflip
      · rw [if_neg h29, if_neg h29]
        by_cases h31 : (v.extractLsb' 5 5).toNat = 31
        · rw [if_pos h31, if_pos h31]
          exact hclear
        · have hlt : (v.extractLsb' 5 5).toNat < 32 := (v.extractLsb' 5 5).isLt
          rw [if_neg h31, if_neg h31]
          exact (hasFields_add (hasFields_clearFineY v)).2.1 (by omega)
  · obtain ⟨hv, hrest⟩ := ppuTick_scroll s
    refine ⟨fun h => ?_, fun h => ?_, hrest⟩
    · rw [hv, if_pos (rendering_iff _ |>.mpr h)]
      simp only [scrolledV, scrollActions, fetchDot_iff]
    · rw [hv, if_neg (fun k => h (rendering_iff _ |>.mp k))]

end Sys2Proof.Machine
end

section
/-! The two invariants of Safety.lean, each kept by every step on its own (20_memory.md, 61_ppu.md R500, R570,
62_mappers_cartridge.md R602, R630). -/

namespace Sys2Proof.Machine

open Sys2Proof.Claims Sys2Proof.Safety

/-- The memories' invariant in its parts. -/
structure MemInv (s : State) : Prop where
  mem : s.memWf = true
  six : paletteSix s.ppu.palette = true
  back : frameWf 61440 s.ppu.backFrame = true
  published : frameWf 61440 s.ppu.publishedFrame = true

theorem memInv_iff (s : State) : memoriesOk s = true ↔ MemInv s := by
  simp only [memoriesOk, Bool.and_eq_true]
  exact ⟨fun ⟨⟨⟨h1, h2⟩, h3⟩, h4⟩ => ⟨h1, h2, h3, h4⟩, fun ⟨h1, h2, h3, h4⟩ => ⟨⟨⟨h1, h2⟩, h3⟩, h4⟩⟩

/-- The ranges' invariant but for the cost counter. -/
structure RangeInv (s : State) : Prop where
  scanline : s.ppu.scanline ≤ 261
  dot : s.ppu.dot ≤ 340
  secondary : s.ppu.secondary.length ≤ 8
  sprites : s.ppu.sprites.length ≤ 8
  regs : regsOk s.launch.cart.mapperNumber s.mapper.regs = true

theorem rangeInv_iff (s : State) : countersOk s = true ↔ s.cpu.sleep ≤ 6 ∧ RangeInv s := by
  simp only [countersOk, Bool.and_eq_true, decide_eq_true_eq]
  constructor
  · rintro ⟨⟨⟨⟨⟨⟨h0, h1⟩, h2⟩, h3⟩, h4⟩, h5⟩, h6⟩
    exact ⟨h0, h1, h2, h3, h4, Bool.and_eq_true_iff.mpr ⟨h5, h6⟩⟩
  · rintro ⟨h0, h1, h2, h3, h4, h56⟩
    obtain ⟨h5, h6⟩ := Bool.and_eq_true_iff.mp h56
    exact ⟨⟨⟨⟨⟨⟨h0, h1⟩, h2⟩, h3⟩, h4⟩, h5⟩, h6⟩

section Memories

variable {s t : State}

theorem memWf_congr (hram : t.ram = s.ram) (hp : t.mapper.prgRam = s.mapper.prgRam) (hc : t.mapper.chrRam = s.mapper.chrRam)
    (hl : t.launch = s.launch) (hv : t.ppu.vram = s.ppu.vram) (hpal : t.ppu.palette = s.ppu.palette)
    (ho : t.ppu.oam = s.ppu.oam) : t.memWf = s.memWf := by
  simp only [State.memWf, hram, hp, hc, hl, hv, hpal, ho]

theorem frameWf_drawnFrame (q : Ppu) (h : frameWf 61440 q.backFrame = true) : frameWf 61440 (drawnFrame s q) = true := by
  unfold drawnFrame
  split
  · exact frameWf_framePut _ _ _ _ (by omega) h
  · exact h

/-- The frames and the lists after a tick are those of the dot's actions. -/
theorem ppuTick_lists (s : State) : (ppuTick s).ppu.backFrame = (dotPpu s).backFrame ∧
    (ppuTick s).ppu.publishedFrame = (dotPpu s).publishedFrame ∧ (ppuTick s).ppu.secondary = (dotPpu s).secondary ∧
    (ppuTick s).ppu.sprites = (dotPpu s).sprites := by
  obtain ⟨l, d, o, e⟩ := advanceDot_eq (dotPpu s)
  rw [ppuTick_ppu_eq, e]
  exact ⟨rfl, rfl, rfl, rfl⟩

theorem shiftedPpu_backFrame (p : Ppu) : (shiftedPpu p).backFrame = p.backFrame := by
  unfold shiftedPpu
  split
  · rw [shiftAndReload_eq]
  · rfl

theorem MemInv.tick (h : MemInv s) : MemInv (ppuTick s) := by
  have e := ticked_ppuTick s
  obtain ⟨hback, hpub, -, -⟩ := ppuTick_lists s
  refine ⟨?_, by rw [e.palette]; exact h.six, ?_, ?_⟩
  · rw [memWf_congr (s := s) (by rw [e.eq]) (by rw [e.eq]) (by rw [e.eq]) (by rw [e.eq]) e.vram e.palette e.oam]
    exact h.mem
  · rw [hback]
    exact frameWf_drawnFrame _ ((shiftedPpu_backFrame s.ppu).symm ▸ h.back)
  · rw [hpub]
    unfold dotPpu
    dsimp only
    split
    · exact h.back
    · exact h.published

theorem MemInv.busWrite (a : Word) (v : Byte) (h : MemInv s) : MemInv (busWrite a v s) := by
  refine ⟨?_, ?_, by rw [busWrite_ppu_backFrame]; exact h.back, by rw [busWrite_ppu_publishedFrame]; exact h.published⟩
  all_goals
    obtain ⟨base, _, _, _, _, _, _, _, _, _, _, _, hb, -, -, e⟩ := busWrite_cases s a v
    rw [e]
    rcases hb with rfl | ⟨r, i, b, -, -, -, h6, rfl⟩
  · exact h.mem
  · exact memWf_setCell s r i b h.mem
  · exact h.six
  · cases r with
    | palette => exact paletteSix_memWrite _ _ _ h.six (by rw [h6 rfl]; exact and_3F_lt v)
    | _ => exact h.six

theorem memInv_keptByStep : KeptByStep MemInv where
  read {u} a h := by
    obtain ⟨_, _, _, _, _, _, e⟩ := busRead_cases u a
    rw [e]
    exact ⟨h.mem, h.six, h.back, h.published⟩
  write a v h := h.busWrite a v
  latch _ h := ⟨h.mem, h.six, h.back, h.published⟩
  cpu _ h := ⟨h.mem, h.six, h.back, h.published⟩
  tick h := h.tick
  reset h := ⟨h.mem, h.six, h.back, h.published⟩
  ram {u} h := by
    have hm := h.mem
    refine ⟨?_, h.six, h.back, h.published⟩
    simp only [State.memWf, Bool.and_eq_true] at hm ⊢
    obtain ⟨⟨⟨⟨⟨⟨⟨-, h2⟩, h3⟩, h4⟩, h5⟩, h6⟩, h7⟩, h8⟩ := hm
    exact ⟨⟨⟨⟨⟨⟨⟨rfl, h2⟩, h3⟩, h4⟩, h5⟩, h6⟩, h7⟩, h8⟩

theorem wf_trainer (c : Cartridge) : Memory.wf .prgRam (mapperPowerOn c).prgRam = true := by
  unfold mapperPowerOn
  dsimp only
  split
  · obtain ⟨hrise, hall⟩ := wf_cellsFrom .prgRam 0x1000 c.trainer
    exact Bool.and_eq_true_iff.mpr ⟨risingFrom_mono _ _ _ (Nat.zero_le _) hrise, hall⟩
  · rfl

theorem memInv_power (h : MemInv s) : MemInv { powerOnState s.launch with shutdown := s.shutdown } := by
  have hm := h.mem
  refine ⟨?_, rfl, rfl, rfl⟩
  simp only [State.memWf, Bool.and_eq_true] at hm ⊢
  obtain ⟨⟨-, h7⟩, h8⟩ := hm
  exact ⟨⟨⟨⟨⟨⟨⟨rfl, wf_trainer _⟩, rfl⟩, rfl⟩, rfl⟩, rfl⟩, h7⟩, h8⟩

end Memories

/-- Settles O57, by what a step keeps of the memories' parts. -/
theorem memoriesStayCanonical : Obligations.MemoriesStayCanonical := by
  intro s t hs h
  rw [memInv_iff] at hs ⊢
  exact memInv_keptByStep.step h hs fun _ => memInv_power hs

section Ranges

variable {s : State}

theorem advanceDot_ranges {p : Ppu} (hl : p.scanline ≤ 261) : (advanceDot p).scanline ≤ 261 ∧ (advanceDot p).dot ≤ 340 := by
  unfold advanceDot
  split
  · exact ⟨Nat.zero_le _, Nat.zero_le _⟩
  · split
    · exact ⟨hl, ‹_›⟩
    · split
      · exact ⟨‹_›, Nat.zero_le _⟩
      · exact ⟨Nat.zero_le _, Nat.zero_le _⟩

theorem RangeInv.tick (h : RangeInv s) : RangeInv (ppuTick s) := by
  have hl : (ppuTick s).launch = s.launch := by rw [(ticked_ppuTick s).eq]
  obtain ⟨-, -, hsec, hspr⟩ := ppuTick_lists s
  obtain ⟨hline, hdot⟩ := advanceDot_ranges (p := dotPpu s) h.scanline
  rw [← ppuTick_ppu_eq] at hline hdot
  refine ⟨hline, hdot, ?_, ?_, hl ▸ regsOk_ppuTick h.regs⟩
  · rw [hsec]
    unfold dotPpu
    dsimp only
    split
    · exact Nat.zero_le _
    · split
      · exact List.length_take_le 8 _
      · exact h.secondary
  · rw [hspr]
    unfold dotPpu
    dsimp only
    split
    · rw [List.length_map]
      exact h.secondary
    · exact h.sprites

theorem regsOk_busWrite (a : Word) (v : Byte) {n : Byte} (h : regsOk n s.mapper.regs = true) :
    regsOk n (busWrite a v s).mapper.regs = true := by
  by_cases ha : 0x8000 ≤ a.toNat
  · rw [busWrite_of_rom ha]
    exact regsOk_mapperWrite a v h
  · rw [(busWrite_irqPending s a v (Nat.lt_of_not_le ha)).2]
    exact h

theorem rangeInv_keptByStep : KeptByStep RangeInv where
  read {u} a h := by
    obtain ⟨_, _, _, _, _, _, e⟩ := busRead_cases u a
    rw [e]
    exact ⟨h.scanline, h.dot, h.secondary, h.sprites, h.regs⟩
  write {u} a v h := by
    refine ⟨?_, ?_, ?_, ?_, ?_⟩
    · rw [busWrite_ppu_scanline]; exact h.scanline
    · rw [busWrite_ppu_dot]; exact h.dot
    · rw [busWrite_ppu_secondary]; exact h.secondary
    · rw [busWrite_ppu_sprites]; exact h.sprites
    · rw [busWrite_launch]; exact regsOk_busWrite a v h.regs
  latch _ h := ⟨h.scanline, h.dot, h.secondary, h.sprites, h.regs⟩
  cpu _ h := ⟨h.scanline, h.dot, h.secondary, h.sprites, h.regs⟩
  tick h := h.tick
  reset h := ⟨Nat.zero_le _, Nat.zero_le _, Nat.zero_le _, Nat.zero_le _, h.regs⟩
  ram h := ⟨h.scanline, h.dot, h.secondary, h.sprites, h.regs⟩

/-- The variant that a mapper number selects at power-on is in range (R602, R630). -/
theorem regsOk_powerOn (n : Byte) : regsOk n (regsPowerOn n) = true := by
  unfold regsPowerOn
  by_cases h1 : n = 1
  · subst h1
    rfl
  · by_cases h4 : n = 4
    · subst h4
      rfl
    · rw [if_neg (beq_false_of_ne h1 ▸ Bool.false_ne_true), if_neg (beq_false_of_ne h4 ▸ Bool.false_ne_true)]
      exact Bool.and_eq_true_iff.mpr ⟨rfl, Bool.and_eq_true_iff.mpr ⟨bne_iff_ne.mpr h1, bne_iff_ne.mpr h4⟩⟩

theorem rangeInv_power (s : State) : RangeInv { powerOnState s.launch with shutdown := s.shutdown } :=
  ⟨Nat.zero_le _, Nat.zero_le _, Nat.zero_le _, Nat.zero_le _, regsOk_powerOn _⟩

end Ranges

/-- Settles O58: the cost counter by the processor step, the other ranges by what a step keeps. -/
theorem countersStayInRange : Obligations.CountersStayInRange := by
  intro s t hs h
  rw [rangeInv_iff] at hs ⊢
  obtain ⟨hsleep, hrange⟩ := hs
  exact ⟨step_sleep h hsleep, rangeInv_keptByStep.step h hrange fun _ => rangeInv_power s⟩

/-- Settles O60 by evaluation: the reset state lists nothing and every counter is 0 but the cost, 6. -/
theorem resetMeetsInvariants : Obligations.ResetMeetsInvariants := by
  constructor <;> decide

end Sys2Proof.Machine
end

section
/-! Proofs of the statements about one tick's pixels, fetches, flags and lists (61_ppu.md sections 4 to 6). -/

namespace Sys2Proof.Machine

open Sys2Proof.Claims

section Bits

theorem toNat_append_add {m n : Nat} (x : BitVec m) (y : BitVec n) : (x ++ y).toNat = x.toNat * 2 ^ n + y.toNat := by
  rw [BitVec.toNat_append, ← Nat.shiftLeft_add_eq_or_of_lt y.isLt, Nat.shiftLeft_eq]

variable (v : VramAddr)

/-- The nametable fetch address: the nametable, the row and the column (R553). -/
theorem nametableAddr_eq : nametableAddr v = BitVec.ofNat 14
    (0x2000 + (v.extractLsb' 10 2).toNat * 0x400 + (v.extractLsb' 5 5).toNat * 32 + (v.extractLsb' 0 5).toNat) := by
  have happ : nametableAddr v = 2#2 ++ v.extractLsb' 10 2 ++ v.extractLsb' 5 5 ++ v.extractLsb' 0 5 := by
    unfold nametableAddr
    refine BitVec.eq_of_getLsbD_eq fun i hi => ?_
    simp only [BitVec.getLsbD_append]
    interval_cases i <;> simp
  refine BitVec.eq_of_toNat_eq ?_
  have hn := (v.extractLsb' 10 2).isLt
  have hr := (v.extractLsb' 5 5).isLt
  have hc := (v.extractLsb' 0 5).isLt
  rw [happ]
  simp only [toNat_append_add, BitVec.toNat_ofNat]
  norm_num at hn hr hc ⊢
  omega

/-- The palette-quadrant fetch address: a byte for each 4 by 4 tiles (R554). -/
theorem attributeAddr_eq : attributeAddr v = BitVec.ofNat 14
    (0x23C0 + (v.extractLsb' 10 2).toNat * 0x400 + (v.extractLsb' 5 5).toNat / 4 * 8 + (v.extractLsb' 0 5).toNat / 4) := by
  have happ : attributeAddr v = 2#2 ++ v.extractLsb' 10 2 ++ 15#4 ++ v.extractLsb' 7 3 ++ v.extractLsb' 2 3 := by
    unfold attributeAddr
    refine BitVec.eq_of_getLsbD_eq fun i hi => ?_
    simp only [BitVec.getLsbD_append]
    interval_cases i <;> simp
  refine BitVec.eq_of_toNat_eq ?_
  have hn := (v.extractLsb' 10 2).isLt
  have hr : (v.extractLsb' 5 5).toNat / 4 = (v.extractLsb' 7 3).toNat := by
    simp only [BitVec.extractLsb'_toNat, Nat.shiftRight_eq_div_pow]
    norm_num
    omega
  have hc : (v.extractLsb' 0 5).toNat / 4 = (v.extractLsb' 2 3).toNat := by
    simp only [BitVec.extractLsb'_toNat, Nat.shiftRight_eq_div_pow]
    norm_num
    omega
  have hr' := (v.extractLsb' 7 3).isLt
  have hc' := (v.extractLsb' 2 3).isLt
  rw [happ, hr, hc]
  simp only [toNat_append_add, BitVec.toNat_ofNat]
  norm_num at hn hr' hc' ⊢
  omega

/-- Where a tile's quadrant lies in the byte of its four quadrants (R554). -/
theorem quadrant_toNat : (((v >>> 4) &&& 4#15) ||| (v &&& 2#15)).toNat =
    (v.extractLsb' 5 5).toNat / 2 % 2 * 4 + (v.extractLsb' 0 5).toNat / 2 % 2 * 2 := by
  have happ : ((v >>> 4) &&& 4#15) ||| (v &&& 2#15) = 0#12 ++ v.extractLsb' 6 1 ++ v.extractLsb' 1 1 ++ 0#1 := by
    refine BitVec.eq_of_getLsbD_eq fun i hi => ?_
    simp only [BitVec.getLsbD_append]
    interval_cases i <;> simp
  have hr : (v.extractLsb' 5 5).toNat / 2 % 2 = (v.extractLsb' 6 1).toNat := by
    simp only [BitVec.extractLsb'_toNat, Nat.shiftRight_eq_div_pow]
    norm_num
    omega
  have hc : (v.extractLsb' 0 5).toNat / 2 % 2 = (v.extractLsb' 1 1).toNat := by
    simp only [BitVec.extractLsb'_toNat, Nat.shiftRight_eq_div_pow]
    norm_num
    omega
  rw [happ, hr, hc]
  simp only [toNat_append_add, BitVec.toNat_ofNat]
  norm_num
  omega

theorem attributeBits_eq (b : Byte) : attributeBits v b =
    b.extractLsb' ((v.extractLsb' 5 5).toNat / 2 % 2 * 4 + (v.extractLsb' 0 5).toNat / 2 % 2 * 2) 2 := by
  rw [attributeBits, quadrant_toNat]
  ext i hi
  simp [BitVec.getElem_setWidth, BitVec.getElem_extractLsb']

/-- The reload of a shift register's low byte (R558). -/
theorem reloadLow_eq (r : BitVec 16) (low : Byte) : reloadLow r low = r.extractLsb' 8 8 ++ low := by
  unfold reloadLow setBits
  refine BitVec.eq_of_getLsbD_eq fun i hi => ?_
  simp only [BitVec.getLsbD_append]
  interval_cases i <;> simp

theorem colourOf_eq (b : Byte) : colourOf b = b.extractLsb' 0 6 := by
  ext i hi
  simp [colourOf, BitVec.getElem_setWidth, BitVec.getElem_extractLsb']

theorem reverse8_eq (b : Byte) : reverse8 b = b.reverse := by
  unfold reverse8
  refine BitVec.eq_of_getLsbD_eq fun i hi => ?_
  simp only [BitVec.getLsbD_reverse]
  interval_cases i <;> simp [BitVec.getMsbD]

end Bits

section Sprites

/-- A sprite shows an opaque pixel at column `x` (R567). -/
def Sprite.opaqueAt (d : Sprite) (x : Nat) : Bool := decide (d.xpos.toNat ≤ x) && decide (x - d.xpos.toNat < 8) &&
  (d.hi.getLsbD (7 - (x - d.xpos.toNat)) || d.lo.getLsbD (7 - (x - d.xpos.toNat)))

theorem Sprite.pixel_ne_zero (d : Sprite) (x : Nat) : (d.pixel x != 0) = d.opaqueAt x := by
  unfold Sprite.pixel Sprite.opaqueAt
  dsimp only
  by_cases h : d.xpos.toNat ≤ x ∧ x - d.xpos.toNat < 8
  · rw [if_pos h, decide_eq_true h.1, decide_eq_true h.2]
    generalize d.hi.getLsbD _ = hi
    generalize d.lo.getLsbD _ = lo
    cases hi <;> cases lo <;> rfl
  · rw [if_neg h, ← Bool.decide_and, decide_eq_false h]
    rfl

theorem spriteAt_eq (p : Ppu) (x : Nat) : spriteAt p x =
    if p.mask.getLsbD 4 = true ∧ (8 ≤ x ∨ p.mask.getLsbD 2 = true) then p.sprites.find? fun d => d.opaqueAt x
    else none := by
  have hshown : spritesShown p x = true ↔ p.mask.getLsbD 4 = true ∧ (8 ≤ x ∨ p.mask.getLsbD 2 = true) := by
    simp [spritesShown, bit]
  unfold spriteAt
  simp only [hshown, Sprite.pixel_ne_zero]

/-- A background pixel is opaque where the layer is shown and a pattern bit is set (R566). -/
theorem backgroundPixel_ne_zero (p : Ppu) (x : Nat) : backgroundPixel p x ≠ 0 ↔
    p.mask.getLsbD 3 = true ∧ (8 ≤ x ∨ p.mask.getLsbD 1 = true) ∧
      (p.bgPatHi.getLsbD (15 - p.x.toNat) || p.bgPatLo.getLsbD (15 - p.x.toNat)) = true := by
  have hshown : backgroundShown p x = true ↔ p.mask.getLsbD 3 = true ∧ (8 ≤ x ∨ p.mask.getLsbD 1 = true) := by
    simp [backgroundShown, bit]
  unfold backgroundPixel regBit
  by_cases h : backgroundShown p x = true
  · rw [if_pos h, ← and_assoc, ← hshown]
    simp only [h, true_and]
    generalize p.bgPatHi.getLsbD _ = hi
    generalize p.bgPatLo.getLsbD _ = lo
    cases hi <;> cases lo <;> decide
  · rw [if_neg h, ← and_assoc, ← hshown]
    simp [h]

/-- The sprite-0 hit of a dot, of the PPU after its shift (R569). -/
theorem hitsSpriteZero_iff (q : Ppu) : hitsSpriteZero q = true ↔
    q.scanline < 240 ∧ 1 ≤ q.dot ∧ q.dot ≤ 255 ∧
      q.mask.getLsbD 3 = true ∧ (8 ≤ q.dot - 1 ∨ q.mask.getLsbD 1 = true) ∧
      (q.bgPatHi.getLsbD (15 - q.x.toNat) || q.bgPatLo.getLsbD (15 - q.x.toNat)) = true ∧
      q.mask.getLsbD 4 = true ∧ (8 ≤ q.dot - 1 ∨ q.mask.getLsbD 2 = true) ∧
      ∃ d, q.sprites.find? (fun d => d.opaqueAt (q.dot - 1)) = some d ∧ d.id = 0 := by
  have hbp := backgroundPixel_ne_zero q (q.dot - 1)
  have hzero : ∀ sp : Option Sprite, spriteZeroAt (backgroundPixel q (q.dot - 1)) sp (q.dot - 1) = true ↔
      backgroundPixel q (q.dot - 1) ≠ 0 ∧ q.dot - 1 ≠ 255 ∧ ∃ d, sp = some d ∧ d.id = 0 := by
    intro sp
    cases sp with
    | none => simp [spriteZeroAt]
    | some d =>
      simp only [spriteZeroAt, Bool.and_eq_true, bne_iff_ne, beq_iff_eq, Option.some.injEq, exists_eq_left']
      tauto
  have hen : q.renderingEnabled = true ↔ q.mask.getLsbD 3 = true ∨ q.mask.getLsbD 4 = true := by
    simp [Ppu.renderingEnabled, bit]
  simp only [hitsSpriteZero, Bool.and_eq_true, decide_eq_true_eq, hzero, hbp, spriteAt_eq, hen, visibleLine]
  by_cases hs : q.mask.getLsbD 4 = true ∧ (8 ≤ q.dot - 1 ∨ q.mask.getLsbD 2 = true)
  · rw [if_pos hs]
    constructor
    · rintro ⟨⟨⟨⟨hl, h1⟩, h256⟩, -⟩, ⟨h3, h8, hb⟩, h255, hd⟩
      exact ⟨hl, h1, by omega, h3, h8, hb, hs.1, hs.2, hd⟩
    · rintro ⟨hl, h1, h255, h3, h8, hb, -, -, hd⟩
      exact ⟨⟨⟨⟨hl, h1⟩, by omega⟩, .inl h3⟩, ⟨h3, h8, hb⟩, by omega, hd⟩
  · rw [if_neg hs]
    constructor
    · rintro ⟨-, -, -, d, hd, -⟩
      cases hd
    · rintro ⟨-, -, -, -, -, -, h4, h8, -⟩
      exact absurd ⟨h4, h8⟩ hs

end Sprites

end Sys2Proof.Machine
end

section
/-! Proof of the statement about a tick's flags and lists (61_ppu.md R563 to R577). -/

namespace Sys2Proof.Machine

open Sys2Proof.Claims

section Lists

variable (s : State)

/-- The pattern address of a sprite's row, as R565's arithmetic. -/
def spriteAddress (p : Ppu) (e : OamEntry) : Int :=
  let row : Int := spriteRow p.scanline p.spriteHeight e
  let tile : Int := (e.tile.toNat : Int)
  if bit p.ctrl 5 then
    tile % 2 * 0x1000 + (if 8 ≤ row then 16 * (tile / 2 * 2 + 1) + (row - 8) else 16 * (tile / 2 * 2) + row)
  else (if bit p.ctrl 3 then 0x1000 else 0) + 16 * tile + row

theorem tile_parts (b : Byte) : ((b &&& 0xFE).toNat : Int) = (b.toNat : Int) / 2 * 2 ∧
    (if bit b 0 then 0x1000 else 0 : Int) = (b.toNat : Int) % 2 * 0x1000 := by
  have happ : b &&& 0xFE = b.extractLsb' 1 7 ++ 0#1 := by
    refine BitVec.eq_of_getLsbD_eq fun i hi => ?_
    simp only [BitVec.getLsbD_append]
    interval_cases i <;> simp
  constructor
  · rw [happ, toNat_append_add, BitVec.extractLsb'_toNat, Nat.shiftRight_eq_div_pow]
    have := b.isLt
    norm_num
    omega
  · rw [bit, BitVec.getLsbD, Nat.testBit_eq_decide_div_mod_eq]
    simp only [decide_eq_true_eq]
    split <;> omega

theorem spritePatternAddr_eq (p : Ppu) (e : OamEntry) : spritePatternAddr p e = BitVec.ofInt 14 (spriteAddress p e) := by
  obtain ⟨htile, htable⟩ := tile_parts e.tile
  unfold spritePatternAddr spriteAddress
  dsimp only
  rw [htile, htable]
  by_cases h5 : bit p.ctrl 5 = true
  · rw [if_pos h5, if_pos h5]
    split
    · rw [add_assoc]
    · rw [add_assoc]
  · rw [if_neg h5, if_neg h5]

theorem fetchSprite_eq (e : OamEntry) : fetchSprite s e =
    let plane (a : Int) : Byte :=
      if e.attr.getLsbD 6 then (ppuRead s (BitVec.ofInt 14 a)).reverse else ppuRead s (BitVec.ofInt 14 a)
    { id := e.n, xpos := e.xpos, attr := e.attr, lo := plane (spriteAddress s.ppu e), hi := plane (spriteAddress s.ppu e + 8) } := by
  have hhi : spritePatternAddr s.ppu e + 8 = BitVec.ofInt 14 (spriteAddress s.ppu e + 8) := by
    rw [spritePatternAddr_eq, BitVec.ofInt_add]
    rfl
  unfold fetchSprite
  dsimp only
  rw [hhi, spritePatternAddr_eq, reverse8_eq, reverse8_eq]
  rfl

/-- An OAM entry is in range of the line (R564). -/
def inRange (n : Nat) : Bool := decide ((s.cell .oam (4 * n)).toNat ≤ s.ppu.scanline) &&
  decide (s.ppu.scanline - (s.cell .oam (4 * n)).toNat < s.ppu.spriteHeight)

theorem spritesInRange_eq : spritesInRange s = ((List.range 64).filter (inRange s)).map (oamEntry s) := by
  unfold spritesInRange
  rw [List.filter_map]
  rfl

theorem ppuTick_flags : (ppuTick s).ppu.vblank = (dotPpu s).vblank ∧
    (ppuTick s).ppu.sprite0Hit = (dotPpu s).sprite0Hit ∧
    (ppuTick s).ppu.spriteOverflow = (dotPpu s).spriteOverflow := by
  obtain ⟨l, d, o, e⟩ := advanceDot_eq (dotPpu s)
  rw [ppuTick_ppu_eq, e]
  exact ⟨rfl, rfl, rfl⟩

end Lists

/-- A rendering dot evaluates sprites where the line is visible (R552). -/
theorem rendering_of_visible {p : Ppu} (hl : p.scanline < 240) : p.rendering = p.renderingEnabled := by
  simp [Ppu.rendering, renderingLine, hl]

theorem shiftedPpu_of_visible {p : Ppu} (hl : p.scanline < 240) (hr : p.renderingEnabled = true) :
    shiftedPpu p = shiftAndReload p :=
  if_pos (rendering_of_visible hl ▸ hr)

/-- The shift leaves all but the background registers. -/
theorem shiftedPpu_fields (p : Ppu) : (shiftedPpu p).scanline = p.scanline ∧ (shiftedPpu p).dot = p.dot ∧
    (shiftedPpu p).mask = p.mask ∧ (shiftedPpu p).x = p.x ∧ (shiftedPpu p).sprites = p.sprites := by
  unfold shiftedPpu
  split
  · rw [shiftAndReload_eq]
    exact ⟨rfl, rfl, rfl, rfl, rfl⟩
  · exact ⟨rfl, rfl, rfl, rfl, rfl⟩

/-- The hit of a dot, of the PPU as the dot began (R569). -/
theorem hitsSpriteZero_shifted (p : Ppu) : hitsSpriteZero (shiftedPpu p) = true ↔
    p.scanline < 240 ∧ 1 ≤ p.dot ∧ p.dot ≤ 255 ∧
      p.mask.getLsbD 3 = true ∧ (8 ≤ p.dot - 1 ∨ p.mask.getLsbD 1 = true) ∧
      ((shiftAndReload p).bgPatHi.getLsbD (15 - p.x.toNat) || (shiftAndReload p).bgPatLo.getLsbD (15 - p.x.toNat)) = true ∧
      p.mask.getLsbD 4 = true ∧ (8 ≤ p.dot - 1 ∨ p.mask.getLsbD 2 = true) ∧
      ∃ d, p.sprites.find? (fun d => d.opaqueAt (p.dot - 1)) = some d ∧ d.id = 0 := by
  obtain ⟨hl, hd, hm, hx, hs⟩ := shiftedPpu_fields p
  rw [hitsSpriteZero_iff, hl, hd, hm, hx, hs]
  refine and_congr_right fun hline => and_congr_right fun _ => and_congr_right fun _ => and_congr_right fun h3 => ?_
  rw [shiftedPpu_of_visible hline (by simp [Ppu.renderingEnabled, bit, h3])]

theorem rendering_eq (p : Ppu) : p.rendering = ((decide (p.scanline < 240) || decide (p.scanline = 261)) &&
    (p.mask.getLsbD 3 || p.mask.getLsbD 4)) := rfl

/-- A flag that 261/1 clears, and a dot that sets it never is (R577). -/
theorem flag_iff {clear flag set : Bool} (h : set = true → clear = false) :
    ((!clear && flag) || set) = true ↔ clear = false ∧ (flag = true ∨ set = true) := by
  cases clear <;> cases flag <;> cases set <;> simp_all

/-- Settles O46, each field by what the dot's actions leave in it. -/
theorem vblankAndNmi : Obligations.VblankAndNmi := by
  intro s
  obtain ⟨-, -, hsec, hspr⟩ := ppuTick_lists s
  obtain ⟨hvb, hhit, hov⟩ := ppuTick_flags s
  dsimp only
  refine ⟨?_, ?_, ?_, ?_, ?_, dotActions_nmi s, congrArg State.cpu (ticked_ppuTick s).eq⟩
  · rw [hsec, ← rendering_eq]
    simp only [dotPpu, spritesInRange_eq, List.map_take, Bool.and_eq_true, decide_eq_true_eq, visibleLine]
    exact if_congr Iff.rfl rfl (if_congr (and_congr_right fun _ => And.comm) rfl rfl)
  · rw [hspr, ← rendering_eq]
    simp only [dotPpu, Bool.and_eq_true, decide_eq_true_eq]
    split
    · refine List.map_congr_left fun e _ => ?_
      rw [fetchSprite_eq]
      rfl
    · rfl
  · simp only [decide_eq_true_eq]
    exact hvb
  · have hset : hitsSpriteZero (shiftedPpu s.ppu) = true → decide (s.ppu.scanline = 261 ∧ s.ppu.dot = 1) = false := by
      rw [hitsSpriteZero_shifted, decide_eq_false_iff_not]
      omega
    rw [hhit]
    exact (flag_iff hset).trans (and_congr_right fun _ => or_congr_right (hitsSpriteZero_shifted s.ppu))
  · have hset : (s.ppu.rendering && decide (s.ppu.dot = 257) && visibleLine s.ppu.scanline &&
        decide (8 < (spritesInRange s).length)) = true → decide (s.ppu.scanline = 261 ∧ s.ppu.dot = 1) = false := by
      simp only [Bool.and_eq_true, decide_eq_true_eq, decide_eq_false_iff_not]
      omega
    rw [hov]
    refine (flag_iff hset).trans (and_congr_right fun _ => or_congr_right ?_)
    rw [spritesInRange_eq, List.length_map]
    simp only [Bool.and_eq_true, decide_eq_true_eq, visibleLine]
    constructor
    · rintro ⟨⟨⟨hr, hd⟩, hl⟩, hlen⟩
      rw [rendering_of_visible hl] at hr
      exact ⟨hl, hd, hr, hlen⟩
    · rintro ⟨hl, hd, hr, hlen⟩
      exact ⟨⟨⟨(rendering_of_visible hl).trans hr, hd⟩, hl⟩, hlen⟩

end Sys2Proof.Machine
end

section
/-! Proof of the statement about a tick's fetches, pixel and counters (61_ppu.md R550 to R570). -/

namespace Sys2Proof.Machine

open Sys2Proof.Claims

section Shift

/-- A background shift register after a dot: shifted, and its low byte reloaded at each dot one above a multiple of 8. -/
def dotShift (p : Ppu) (r : BitVec 16) (low : Byte) : BitVec 16 :=
  if p.rendering && (decide (2 ≤ p.dot ∧ p.dot ≤ 257) || decide (321 ≤ p.dot ∧ p.dot ≤ 337)) then
    (if p.dot % 8 = 1 then (r <<< 1).extractLsb' 8 8 ++ low else r <<< 1)
  else r

theorem dotShift_eq (p : Ppu) (r : BitVec 16) (low : Byte) :
    dotShift p r low = if p.rendering then shiftedReg p.dot low r else r := by
  have hdot : shiftDot p.dot = (decide (2 ≤ p.dot ∧ p.dot ≤ 257) || decide (321 ≤ p.dot ∧ p.dot ≤ 337)) := by
    simp [shiftDot]
  unfold dotShift shiftedReg
  rw [← hdot, reloadLow_eq]
  by_cases hr : p.rendering = true
  · rw [hr, Bool.true_and, if_pos rfl]
    by_cases hd : shiftDot p.dot = true
    · have h8 : (p.dot - 1) % 8 = 0 ↔ p.dot % 8 = 1 := by
        rw [shiftDot_iff] at hd
        omega
      rw [if_pos hd, if_pos hd]
      exact if_congr h8.symm rfl rfl
    · rw [if_neg hd, if_neg hd]
  · rw [if_neg hr, Bool.eq_false_iff.mpr hr, Bool.false_and, if_neg Bool.false_ne_true]

theorem shiftedPpu_registers (p : Ppu) : (shiftedPpu p).bgPatLo = dotShift p p.bgPatLo p.patLoLatch ∧
    (shiftedPpu p).bgPatHi = dotShift p p.bgPatHi p.patHiLatch ∧
    (shiftedPpu p).bgAtLo = dotShift p p.bgAtLo (fillByte (bit p.atLatch 0)) ∧
    (shiftedPpu p).bgAtHi = dotShift p p.bgAtHi (fillByte (bit p.atLatch 1)) := by
  simp only [dotShift_eq]
  unfold shiftedPpu
  split
  · rw [shiftAndReload_eq]
    exact ⟨rfl, rfl, rfl, rfl⟩
  · exact ⟨rfl, rfl, rfl, rfl⟩

end Shift

section Pixel

/-- The two bits of a pixel as a number. -/
def twoBits (hi lo : Bool) : Nat := (if hi then 2 else 0) + (if lo then 1 else 0)

theorem regBit_pair (a b : BitVec 16) (k : Nat) : regBit a k * 2 + regBit b k = twoBits (a.getLsbD k) (b.getLsbD k) := by
  unfold regBit twoBits
  cases a.getLsbD k <;> rfl

theorem backgroundPixel_eq (q : Ppu) (x : Nat) : backgroundPixel q x =
    if q.mask.getLsbD 3 = true ∧ (8 ≤ x ∨ q.mask.getLsbD 1 = true)
      then twoBits (q.bgPatHi.getLsbD (15 - q.x.toNat)) (q.bgPatLo.getLsbD (15 - q.x.toNat)) else 0 := by
  have hshown : backgroundShown q x = true ↔ q.mask.getLsbD 3 = true ∧ (8 ≤ x ∨ q.mask.getLsbD 1 = true) := by
    simp [backgroundShown, bit]
  rw [backgroundPixel, regBit_pair]
  exact if_congr hshown rfl rfl

/-- The palette offset of a pixel that the background gives. -/
def backgroundOffset (bp bpl : Nat) : Nat := if bp = 0 then 0 else 4 * bpl + bp

/-- The composition of a pixel's two layers (R568). -/
theorem composeOffset_some (bp bpl x : Nat) (d : Sprite) : composeOffset bp bpl (some d) x =
    if bp ≠ 0 ∧ d.attr.getLsbD 5 = true then backgroundOffset bp bpl
    else 4 * (4 + (d.attr &&& 0x03).toNat) + d.pixel x := by
  have hlow : (d.attr.extractLsb' 0 2).toNat = (d.attr &&& 0x03).toNat := by
    rw [BitVec.extractLsb'_toNat, Nat.shiftRight_zero, BitVec.toNat_and]
    exact (Nat.and_two_pow_sub_one_eq_mod d.attr.toNat 2).symm
  unfold composeOffset backgroundOffset bit
  dsimp only
  rw [hlow]
  by_cases hb : bp = 0
  · simp [hb]
  · cases d.attr.getLsbD 5 <;> simp [hb]

/-- Where in the palette the pixel of a dot lies, of the PPU as the dot began (R566 to R568). -/
theorem pixelOffset_shifted (p : Ppu) : pixelOffset (shiftedPpu p) =
    let x := p.dot - 1
    let k := 15 - p.x.toNat
    let bp := if p.mask.getLsbD 3 = true ∧ (8 ≤ x ∨ p.mask.getLsbD 1 = true)
      then twoBits ((dotShift p p.bgPatHi p.patHiLatch).getLsbD k) ((dotShift p p.bgPatLo p.patLoLatch).getLsbD k) else 0
    let bpl := twoBits ((dotShift p p.bgAtHi (fillByte (bit p.atLatch 1))).getLsbD k)
      ((dotShift p p.bgAtLo (fillByte (bit p.atLatch 0))).getLsbD k)
    if p.renderingEnabled = false then 0 else match spriteAt p x with
      | none => backgroundOffset bp bpl
      | some d => if bp ≠ 0 ∧ d.attr.getLsbD 5 = true then backgroundOffset bp bpl
        else 4 * (4 + (d.attr &&& 0x03).toNat) + d.pixel x := by
  obtain ⟨eplo, ephi, ealo, eahi⟩ := shiftedPpu_registers p
  obtain ⟨-, hd, hm, hx, hs⟩ := shiftedPpu_fields p
  have hen : (shiftedPpu p).renderingEnabled = p.renderingEnabled := by rw [Ppu.renderingEnabled, hm]; rfl
  have hsp : spriteAt (shiftedPpu p) = spriteAt p := by
    funext x
    rw [spriteAt_eq, spriteAt_eq, hm, hs]
  rw [pixelOffset, hen, hsp, backgroundPixel_eq, backgroundPalette, regBit_pair, hd, hm, hx, eplo, ephi, ealo, eahi]
  dsimp only
  cases p.renderingEnabled with
  | false => rfl
  | true =>
    cases spriteAt p (p.dot - 1) with
    | none => rfl
    | some d => exact composeOffset_some _ _ _ d

end Pixel

section Fields

variable (s : State)

/-- The fetch latches and the shift registers after a tick are those of the dot's actions. -/
theorem ppuTick_fetches : (ppuTick s).ppu.ntLatch = (dotPpu s).ntLatch ∧ (ppuTick s).ppu.atLatch = (dotPpu s).atLatch ∧
    (ppuTick s).ppu.patLoLatch = (dotPpu s).patLoLatch ∧ (ppuTick s).ppu.patHiLatch = (dotPpu s).patHiLatch ∧
    (ppuTick s).ppu.bgPatLo = (shiftedPpu s.ppu).bgPatLo ∧ (ppuTick s).ppu.bgPatHi = (shiftedPpu s.ppu).bgPatHi ∧
    (ppuTick s).ppu.bgAtLo = (shiftedPpu s.ppu).bgAtLo ∧ (ppuTick s).ppu.bgAtHi = (shiftedPpu s.ppu).bgAtHi := by
  obtain ⟨l, d, o, e⟩ := advanceDot_eq (dotPpu s)
  rw [ppuTick_ppu_eq, e]
  exact ⟨rfl, rfl, rfl, rfl, rfl, rfl, rfl, rfl⟩

/-- The fetch dots of a fetch, counted in eights (R553). -/
theorem fetches_iff (p : Ppu) (k : Nat) : (p.rendering && decide (p.dot % 8 = k) &&
      (decide (1 ≤ p.dot ∧ p.dot ≤ 256) || decide (321 ≤ p.dot ∧ p.dot ≤ 336))) = true ↔
    p.rendering = true ∧ fetchDot p.dot = true ∧ p.dot % 8 = k := by
  simp only [Bool.and_eq_true, Bool.or_eq_true, decide_eq_true_eq, fetchDot_iff]
  tauto

theorem spriteAt_pixel (p : Ppu) (x : Nat) : spriteAt p x =
    if p.mask.getLsbD 4 = true ∧ (8 ≤ x ∨ p.mask.getLsbD 2 = true) then p.sprites.find? fun d => d.pixel x != 0
    else none := by
  rw [spriteAt_eq]
  simp only [Sprite.pixel_ne_zero]

/-- The frame that a dot leaves, pixel by pixel (R566, R570). -/
theorem frameGet_dotPpu {p : Ppu} (hp : s.ppu = p) (h : p.scanline < 240 ∧ 1 ≤ p.dot ∧ p.dot ≤ 256) (i : Nat) :
    frameGet (dotPpu s).backFrame i = if i = p.scanline * 256 + (p.dot - 1) then
      some (colourOf (ppuRead s (BitVec.ofNat 14 (0x3F00 + pixelOffset (shiftedPpu p))))) else frameGet p.backFrame i := by
  subst hp
  obtain ⟨hl, hd, -⟩ := shiftedPpu_fields s.ppu
  show frameGet (drawnFrame s (shiftedPpu s.ppu)) i = _
  rw [drawnFrame, hl, hd, if_pos h, frameGet_framePut, shiftedPpu_backFrame]

theorem dotPpu_backFrame_off (h : ¬ (s.ppu.scanline < 240 ∧ 1 ≤ s.ppu.dot ∧ s.ppu.dot ≤ 256)) :
    (dotPpu s).backFrame = s.ppu.backFrame := by
  obtain ⟨hl, hd, -⟩ := shiftedPpu_fields s.ppu
  show drawnFrame s (shiftedPpu s.ppu) = _
  rw [drawnFrame, hl, hd, if_neg h, shiftedPpu_backFrame]

end Fields

/-- The counters after a dot in range (R550, R551). -/
theorem advanceDot_counters (p : Ppu) (hl : p.scanline ≤ 261) (_ : p.dot ≤ 340) :
    let skip := p.scanline = 261 ∧ p.dot = 339 ∧ p.oddFrame = true ∧ p.renderingEnabled = true
    let q := advanceDot p
    (skip → q.scanline = 0 ∧ q.dot = 0 ∧ q.oddFrame = false) ∧
    (¬ skip → p.dot < 340 → q.scanline = p.scanline ∧ q.dot = p.dot + 1 ∧ q.oddFrame = p.oddFrame) ∧
    (p.dot = 340 → p.scanline < 261 → q.scanline = p.scanline + 1 ∧ q.dot = 0 ∧ q.oddFrame = p.oddFrame) ∧
    (p.dot = 340 → p.scanline = 261 → q.scanline = 0 ∧ q.dot = 0 ∧ q.oddFrame = !p.oddFrame) := by
  intro skip q
  refine ⟨fun h => ?_, fun h hlt => ?_, fun h340 hlt => ?_, fun h340 h261 => ?_⟩
  · have hq : q = { p with scanline := 0, dot := 0, oddFrame := !p.oddFrame } := if_pos h
    rw [hq, h.2.2.1]
    exact ⟨rfl, rfl, rfl⟩
  · have hq : q = { p with dot := p.dot + 1 } := (if_neg h).trans (if_pos hlt)
    rw [hq]
    exact ⟨rfl, rfl, rfl⟩
  · have hq : q = { p with dot := 0, scanline := p.scanline + 1 } :=
      (if_neg (by omega)).trans ((if_neg (by omega)).trans (if_pos hlt))
    rw [hq]
    exact ⟨rfl, rfl, rfl⟩
  · have hq : q = { p with dot := 0, scanline := 0, oddFrame := !p.oddFrame } :=
      (if_neg (by omega)).trans ((if_neg (by omega)).trans (if_neg (by omega)))
    rw [hq]
    exact ⟨rfl, rfl, rfl⟩

/-- Settles O45, each field by what the dot's actions leave in it, then the counters'. -/
theorem tickDrawsAndAdvances : Obligations.TickDrawsAndAdvances := by
  intro s
  obtain ⟨hback, hpub, -, -⟩ := ppuTick_lists s
  obtain ⟨hnt, hat, hlo, hhi, hplo, hphi, halo, hahi⟩ := ppuTick_fetches s
  obtain ⟨eplo, ephi, ealo, eahi⟩ := shiftedPpu_registers s.ppu
  dsimp only
  simp only [← rendering_eq]
  refine ⟨?_, ?_, ?_, ?_, hplo.trans eplo, hphi.trans ephi, halo.trans ealo, hahi.trans eahi, fun i hdraw => ?_,
    fun hdraw => hback.trans (dotPpu_backFrame_off s hdraw), hpub, fun hl hd => ?_⟩
  · rw [hnt, ← nametableAddr_eq]
    exact if_congr (fetches_iff s.ppu 2).symm rfl rfl
  · rw [hat, ← attributeAddr_eq, ← attributeBits_eq]
    exact if_congr (fetches_iff s.ppu 4).symm rfl rfl
  · rw [hlo]
    exact if_congr (fetches_iff s.ppu 6).symm rfl rfl
  · rw [hhi]
    exact if_congr (fetches_iff s.ppu 0).symm rfl rfl
  · rw [hback, frameGet_dotPpu s rfl hdraw, colourOf_eq]
    refine if_congr Iff.rfl (congrArg (fun n => some ((ppuRead s (BitVec.ofNat 14 (0x3F00 + n))).extractLsb' 0 6)) ?_) rfl
    rw [pixelOffset_shifted]
    dsimp only
    rw [spriteAt_pixel]
    rfl
  · rw [ppuTick_ppu_eq]
    exact advanceDot_counters (dotPpu s) hl hd

end Sys2Proof.Machine
end

section
/-! Proofs of the reset statements (70_reset_and_hazards.md R700 to R705). -/

namespace Sys2Proof.Machine

open Sys2Proof.Claims

section Sequence

variable {s : State}

theorem resetSequence_of_override {e : Word} (h : s.launch.entryOverride = some e) :
    resetSequence s = .next { s with cpu := { s.cpu with i := true, pc := e, sleep := 6 } } := by
  rw [resetSequence_eq, h]

theorem resetSequence_of_vector (h : s.launch.entryOverride = none) {w : Word} (hv : vectorWord .reset s = w) (hw : w ≠ 0xFFFF) :
    resetSequence s = .next { s with cpu := { s.cpu with i := true, pc := w, sleep := 6 } } := by
  subst hv
  rw [resetSequence_eq, h]
  exact if_neg hw

theorem resetSequence_of_badVector (h : s.launch.entryOverride = none) (hv : vectorWord .reset s = 0xFFFF) :
    resetSequence s = .fault (.badVector 0xFFFC { s with cpu := { s.cpu with i := true }, busLatch := 0xFF }) := by
  rw [resetSequence_eq, h]
  exact if_pos hv

end Sequence

/-- Settles O42 by evaluation of the standard launch's power-on. -/
theorem resetValues : Obligations.ResetValues := by
  refine ⟨?_, rfl, rfl, rfl, rfl, rfl, rfl, rfl, rfl, rfl, rfl⟩
  have hw : vectorWord .reset (powerOnState Launch.standard) = 0x8000 := by decide
  rw [powerOn, resetSequence_of_vector rfl hw (by decide)]
  rfl

/-- The machine before a soft reset's sequence (R701). -/
def softState (s : State) : State := { s with
  cpu := { s.cpu with s := s.cpu.s - 3, i := true, nmiPending := false }
  ppu := s.ppu.reset, hostRequest := none, stopped := false }

/-- The running machine before a hard reset's sequence (R700, R705). -/
def hardState (s : State) : State := { s with
  cpu := { Cpu.afterReset s.cpu.pc with sleep := s.cpu.sleep }
  ram := [], ppu := s.ppu.reset, hostRequest := none, stopped := false }

/-- The launch's machine before a power-on's sequence (R700). -/
def coldState (s : State) : State := { powerOnState s.launch with shutdown := s.shutdown }

theorem softReset_eq (s : State) : softReset s = resetSequence (softState s) := rfl

theorem hardReset_eq (s : State) : hardReset s = resetSequence (hardState s) := rfl

theorem powerCycle_eq (s : State) : powerCycle s = resetSequence (coldState s) := rfl

/-- Settles O43: the reset sequence from the state that the soft reset sets. -/
theorem softResetCompletes : Obligations.SoftResetCompletes := by
  intro s after
  have hv : vectorWord .reset (softState s) = vectorWord .reset s := vectorWord_congr .reset rfl rfl
  rw [softReset_eq]
  refine ⟨fun e he => resetSequence_of_override (s := softState s) he, fun ho hw => ?_, fun ho hw => ?_⟩
  · exact resetSequence_of_vector (s := softState s) ho hv hw
  · exact resetSequence_of_badVector (s := softState s) ho (hv.trans hw)

section Trainer

/-- Cells made from a list of bytes read as those bytes, and as unlisted elsewhere (R600, R604). -/
theorem memRead_cellsFrom (r : Region) (bs : List Byte) (k i : Nat) : memRead r (cellsFrom r k bs) i =
    if k ≤ i then (bs[i - k]?).getD (unlistedRead r i) else unlistedRead r i := by
  induction bs generalizing k with
  | nil => simp [cellsFrom, memRead, memFind]
  | cons b bs ih =>
    have htail : k < i → (bs[i - (k + 1)]?).getD (unlistedRead r i) = ((b :: bs)[i - k]?).getD (unlistedRead r i) :=
      fun h => by rw [show i - k = (i - (k + 1)) + 1 by omega, List.getElem?_cons_succ]
    rw [cellsFrom]
    by_cases hb : unlisted r = some b
    · rw [if_pos hb, ih]
      by_cases hle : k + 1 ≤ i
      · rw [if_pos hle, if_pos (by omega), htail hle]
      · rw [if_neg hle]
        by_cases hk : k ≤ i
        · rw [if_pos hk, show i - k = 0 by omega]
          simp [unlistedRead, hb]
        · rw [if_neg hk]
    · rw [if_neg hb]
      by_cases hk : k = i
      · simp [memRead, memFind, hk]
      · have hread : memRead r ((k, b) :: cellsFrom r (k + 1) bs) i = memRead r (cellsFrom r (k + 1) bs) i := by
          rw [memRead, memFind, if_neg hk, memRead]
        rw [hread, ih]
        by_cases hle : k + 1 ≤ i
        · rw [if_pos hle, if_pos (by omega), htail hle]
        · rw [if_neg hle, if_neg (by omega)]

end Trainer

/-- The variant's registers at power-on (R602, R630, R640). -/
theorem regsPowerOn_eq (n : Byte) : regsPowerOn n =
    if n = 1 then .mmc1 coldMmc1 else if n = 4 then .mmc3 coldMmc3 else .nrom := by
  simp only [regsPowerOn, beq_iff_eq]
  rfl

/-- PRG-RAM at power-on: the trainer at $1000 to $11FF where the variant has the RAM (R604). -/
theorem memRead_trainer (c : Cartridge) (h : c.hasTrainer = true → c.trainer.length = 512) (i : Nat) :
    memRead .prgRam (mapperPowerOn c).prgRam i =
      if c.hasTrainer && hasPrgRam c && decide (0x1000 ≤ i ∧ i < 0x1200) then c.trainer.getD (i - 0x1000) 0
      else Config.initMem .prgRam i := by
  unfold mapperPowerOn
  dsimp only
  by_cases ht : (c.hasTrainer && hasPrgRam c) = true
  · have hlen := h (Bool.and_eq_true_iff.mp ht).1
    rw [if_pos ht, ht, Bool.true_and, memRead_cellsFrom]
    by_cases hi : 0x1000 ≤ i ∧ i < 0x1200
    · have hin : i - 0x1000 < c.trainer.length := by omega
      rw [if_pos hi.1, decide_eq_true hi, if_pos rfl, List.getElem?_eq_getElem hin, List.getD_eq_getElem _ _ hin]
      rfl
    · rw [decide_eq_false hi, if_neg Bool.false_ne_true]
      split
      · rw [List.getElem?_eq_none (by omega)]
        rfl
      · rfl
  · rw [if_neg ht, Bool.eq_false_iff.mpr ht, Bool.false_and, if_neg Bool.false_ne_true]
    rfl

/-- Settles O44: the reset sequence from the power-on state and from the running machine's. -/
theorem hardResetCompletes : Obligations.HardResetCompletes := by
  intro s cart ram cold warm
  have hcold : ∀ pc, cold pc = { coldState s with cpu := { (coldState s).cpu with pc := pc } } := fun pc => by
    simp only [cold, cart, ← regsPowerOn_eq]
    rfl
  have hvc : vectorWord .reset (coldState s) = vectorWord .reset (cold 0) := by rw [hcold]; rfl
  have hvh : vectorWord .reset (hardState s) = vectorWord .reset s := vectorWord_congr .reset rfl rfl
  rw [hardReset_eq, powerCycle_eq]
  refine ⟨handleOutcome_eq_surfaced _, memRead_trainer cart, fun e he => ⟨?_, ?_⟩,
    fun ho => ⟨fun hw => ?_, fun hw => ?_, fun hw => ?_, fun hw => ?_⟩⟩
  · rw [hcold]
    exact resetSequence_of_override (s := coldState s) he
  · exact resetSequence_of_override (s := hardState s) he
  · rw [hcold]
    exact resetSequence_of_vector (s := coldState s) ho hvc hw
  · rw [hcold]
    exact resetSequence_of_badVector (s := coldState s) ho (hvc.trans hw)
  · exact resetSequence_of_vector (s := hardState s) ho hvh hw
  · exact resetSequence_of_badVector (s := hardState s) ho (hvh.trans hw)

end Sys2Proof.Machine
end

section
/-! Proofs of the mapper statements (62_mappers_cartridge.md R631 to R655) and of the loading of an image (R600 to R602). -/

namespace Sys2Proof.Machine

open Sys2Proof.Claims

section Banks

variable {a : Word}

/-- A field of a register as arithmetic. -/
theorem toNat_field {n : Nat} (v : BitVec n) (k w : Nat) : (v.extractLsb' k w).toNat = v.toNat / 2 ^ k % 2 ^ w := by
  rw [BitVec.extractLsb'_toNat, Nat.shiftRight_eq_div_pow]

/-- The 16 KiB bank of each half, by the PRG mode's table (R633). -/
theorem Mmc1.prgBank_eq (m : Mmc1) (pages : Nat) (high : Bool) : m.prgBank pages high =
    let b := m.prg.toNat % 16
    let mode := m.control.toNat / 4 % 4
    if high = false then (if mode ≤ 1 then b / 2 * 2 else if mode = 2 then 0 else b)
    else (if mode ≤ 1 then b / 2 * 2 + 1 else if mode = 2 then b else pages - 1) := by
  have hb : (m.prg.extractLsb' 0 4).toNat = m.prg.toNat % 16 := by rw [toNat_field]; norm_num
  have hmode : m.prgMode = m.control.toNat / 4 % 4 := toNat_field m.control 2 2
  have hlt : m.control.toNat / 4 % 4 < 4 := Nat.mod_lt _ (by decide)
  unfold Mmc1.prgBank
  rw [hb, hmode]
  dsimp only
  generalize m.control.toNat / 4 % 4 = mode at hlt
  interval_cases mode <;> cases high <;> rfl

theorem prgWindow_mmc1_cellIndex (c : Cartridge) (m : Mmc1) (a : Word) : (prgWindow c (.mmc1 m) a).cellIndex a.toNat =
    m.prgBank c.prgPages (0xC000 ≤ a.toNat) % c.prgPages * 0x4000 + a.toNat % 0x4000 :=
  cellIndex_of_bankWindow ..

theorem prgWindow_mmc3_cellIndex (c : Cartridge) (m : Mmc3) (a : Word) : (prgWindow c (.mmc3 m) a).cellIndex a.toNat =
    m.prgBank c.prgPages ((a.toNat - 0x8000) / 0x2000) % (2 * c.prgPages) * 0x2000 + a.toNat % 0x2000 :=
  cellIndex_of_bankWindow ..

/-- The 8 KiB bank of each quarter (R644). -/
theorem Mmc3.prgBank_eq (m : Mmc3) (pages : Nat) (ha : 0x8000 ≤ a.toNat) : m.prgBank pages ((a.toNat - 0x8000) / 0x2000) =
    if a.toNat < 0xA000 then (if m.bankSelect.getLsbD 6 then 2 * pages - 2 else m.r6.toNat)
    else if a.toNat < 0xC000 then m.r7.toNat
    else if a.toNat < 0xE000 then (if m.bankSelect.getLsbD 6 then m.r6.toNat else 2 * pages - 2)
    else 2 * pages - 1 := by
  have hlt := a.isLt
  unfold Mmc3.prgBank bit
  dsimp only
  by_cases h1 : a.toNat < 0xA000
  · rw [if_pos h1, show (a.toNat - 0x8000) / 0x2000 = 0 by omega]
    cases m.bankSelect.getLsbD 6 <;> rfl
  · by_cases h2 : a.toNat < 0xC000
    · rw [if_neg h1, if_pos h2, show (a.toNat - 0x8000) / 0x2000 = 1 by omega]
      cases m.bankSelect.getLsbD 6 <;> rfl
    · by_cases h3 : a.toNat < 0xE000
      · rw [if_neg h1, if_neg h2, if_pos h3, show (a.toNat - 0x8000) / 0x2000 = 2 by omega]
        cases m.bankSelect.getLsbD 6 <;> rfl
      · rw [if_neg h1, if_neg h2, if_neg h3, show (a.toNat - 0x8000) / 0x2000 = 3 by omega]
        cases m.bankSelect.getLsbD 6 <;> rfl

end Banks

/-- Settles O53: a read goes through the PRG window of its variant, and the window's bank is the table's. -/
theorem bankedPrgWindows : Obligations.BankedPrgWindows := by
  intro a s ha
  refine ⟨fun m hm => ?_, fun m hm => ?_⟩
  · rw [busRead_of_prgWindow s ha, hm, prgWindow_mmc1_cellIndex, Mmc1.prgBank_eq]
    have hlow : (decide (0xC000 ≤ a.toNat) = false) = (a.toNat < 0xC000) := by
      rw [decide_eq_false_iff_not, Nat.not_le]
    simp only [hlow]
  · rw [busRead_of_prgWindow s ha, hm, prgWindow_mmc3_cellIndex, Mmc3.prgBank_eq m _ ha]

section Serial

variable (m : Mmc1) (a : Word) (d : Byte)

/-- The serial shift register with one more bit (R631). -/
def serialShift (r : BitVec 5) (d : Byte) : BitVec 5 := (r >>> 1) ||| ((d.setWidth 5 &&& 1#5) <<< 4)

theorem Mmc1.write_shift (hd : d.getLsbD 7 = false) (hc : m.count + 1 ≠ 5) :
    m.write a d = { m with shift := serialShift m.shift d, count := m.count + 1 } := by
  rw [Mmc1.write, bit, hd, if_neg Bool.false_ne_true]
  exact if_neg hc

theorem Mmc1.write_load (hd : d.getLsbD 7 = false) (hc : m.count = 4) : m.write a d =
    let v := serialShift m.shift d
    let k := a.toNat / 0x2000 % 4
    { shift := 0
      count := 0
      control := if k = 0 then v else m.control
      chr0 := if k = 1 then v else m.chr0
      chr1 := if k = 2 then v else m.chr1
      prg := if k = 3 then v else m.prg } := by
  have hk : (a.extractLsb' 13 2).toNat = a.toNat / 0x2000 % 4 := toNat_field a 13 2
  have hlt : a.toNat / 0x2000 % 4 < 4 := Nat.mod_lt _ (by decide)
  have h5 : m.count + 1 = 5 := by rw [hc]
  rw [Mmc1.write, bit, hd, if_neg Bool.false_ne_true]
  dsimp only
  rw [if_pos h5, hk]
  generalize a.toNat / 0x2000 % 4 = k at hlt
  interval_cases k <;> rfl

/-- Five bits from lowest to highest, as a number. -/
theorem ofNat_five_bits (b1 b2 b3 b4 b5 : Bool) : BitVec.ofBool b5 ++ BitVec.ofBool b4 ++ BitVec.ofBool b3 ++
      BitVec.ofBool b2 ++ BitVec.ofBool b1 =
    BitVec.ofNat 5 ((if b1 then 1 else 0) + 2 * (if b2 then 1 else 0) + 4 * (if b3 then 1 else 0) +
      8 * (if b4 then 1 else 0) + 16 * (if b5 then 1 else 0)) := by
  decide +revert

/-- Five shifts leave the five bits, the first one lowest. -/
theorem serialShift_five (r : BitVec 5) (d1 d2 d3 d4 d5 : Byte) :
    serialShift (serialShift (serialShift (serialShift (serialShift r d1) d2) d3) d4) d5 =
      BitVec.ofBool (d5.getLsbD 0) ++ BitVec.ofBool (d4.getLsbD 0) ++ BitVec.ofBool (d3.getLsbD 0) ++
        BitVec.ofBool (d2.getLsbD 0) ++ BitVec.ofBool (d1.getLsbD 0) := by
  refine BitVec.eq_of_getLsbD_eq fun i hi => ?_
  simp only [BitVec.getLsbD_append]
  interval_cases i <;> simp [serialShift]

end Serial

/-- Settles O54: four shifts, then the load of the register that the fifth address selects; or the restart. -/
theorem serialProtocol : Obligations.SerialProtocol := by
  intro m a1 a2 a3 a4 a5 d1 d2 d3 d4 d5
  refine ⟨fun hc h1 h2 h3 h4 h5 => ?_, fun h => if_pos h⟩
  intro bit v k
  have hv : v = serialShift (serialShift (serialShift (serialShift (serialShift m.shift d1) d2) d3) d4) d5 := by
    rw [serialShift_five, ofNat_five_bits]
  rw [Mmc1.write_shift m a1 d1 h1 (by omega), Mmc1.write_shift _ a2 d2 h2 (by dsimp only; omega),
    Mmc1.write_shift _ a3 d3 h3 (by dsimp only; omega), Mmc1.write_shift _ a4 d4 h4 (by dsimp only; omega),
    Mmc1.write_load _ a5 d5 h5 (by dsimp only; omega), hv]

section Irq

variable {s : State} {m : Mmc3}

/-- One call of `on_scanline()` under the scanline-IRQ variant (R655). -/
theorem onScanline_mmc3 (hm : s.mapper.regs = .mmc3 m) :
    let counter : Byte := if m.irqCounter = 0 ∨ m.irqReload = true then m.irqLatch else m.irqCounter - 1
    onScanline s = { s with
      mapper := { s.mapper with regs := .mmc3 { m with irqCounter := counter, irqReload := false } }
      cpu := { s.cpu with irqPending := s.cpu.irqPending || (decide (counter = 0) && m.irqEnabled) } } := by
  intro counter
  have hclock : m.clock = { m with irqCounter := counter, irqReload := false } := by
    by_cases h : m.irqCounter = 0 ∨ m.irqReload = true
    · have hb : (m.irqCounter == 0 || m.irqReload) = true := by simpa using h
      rw [Mmc3.clock, if_pos hb]
      simp only [counter, if_pos h]
    · have hb : (m.irqCounter == 0 || m.irqReload) = false := by simpa using h
      have hr : m.irqReload = false := (Bool.or_eq_false_iff.mp hb).2
      rw [Mmc3.clock, hb, if_neg Bool.false_ne_true]
      simp only [counter, if_neg h, ← hr]
  unfold onScanline
  rw [hm]
  simp only [hclock]
  rfl

/-- While IRQs are disabled no call sets the IRQ latch. -/
theorem irqPending_iterate_disabled (hm : s.mapper.regs = .mmc3 m) (hoff : m.irqEnabled = false) (k : Nat) :
    ((onScanline^[k] s).cpu.irqPending = s.cpu.irqPending) ∧ IrqDisabled (onScanline^[k] s) := by
  induction k with
  | zero => exact ⟨rfl, m, hm, hoff⟩
  | succ k ih =>
    obtain ⟨hq, m', hm', hoff'⟩ := ih
    rw [Function.iterate_succ_apply', onScanline_mmc3 hm', hoff', hq, Bool.and_false, Bool.or_false]
    exact ⟨rfl, _, rfl, rfl⟩

/-- The counter `j` below the latch is zero at the latch's own value. -/
theorem counter_eq_zero_iff (latch : Byte) {j : Nat} (hj : j ≤ latch.toNat) :
    latch - BitVec.ofNat 8 j = 0 ↔ j = latch.toNat := by
  have hlt := latch.isLt
  rw [← BitVec.toNat_inj, BitVec.toNat_sub, BitVec.toNat_ofNat,
    show BitVec.toNat (0 : Byte) = 0 from rfl]
  norm_num
  omega

/-- From a pending reload, call `j + 1` leaves the counter `j` below the latch, and the IRQ latch set where that is 0. -/
theorem onScanline_iterate (hm : s.mapper.regs = .mmc3 m) (hstart : m.irqCounter = 0 ∨ m.irqReload = true)
    (hon : m.irqEnabled = true) (j : Nat) (hj : j ≤ m.irqLatch.toNat) : onScanline^[j + 1] s = { s with
      mapper := { s.mapper with regs := .mmc3 { m with irqCounter := m.irqLatch - BitVec.ofNat 8 j, irqReload := false } }
      cpu := { s.cpu with irqPending := s.cpu.irqPending || decide (j = m.irqLatch.toNat) } } := by
  induction j with
  | zero =>
    rw [Function.iterate_succ_apply', Function.iterate_zero_apply, onScanline_mmc3 hm, if_pos hstart, hon]
    have hz : decide (m.irqLatch = 0) = decide (0 = m.irqLatch.toNat) := by
      rw [decide_eq_decide, ← counter_eq_zero_iff m.irqLatch (Nat.zero_le _)]
      simp
    rw [hz, Bool.and_true, show m.irqLatch - BitVec.ofNat 8 0 = m.irqLatch by simp]
  | succ j ih =>
    have hne : ¬ (m.irqLatch - BitVec.ofNat 8 j = 0 ∨ false = true) := by
      rw [counter_eq_zero_iff m.irqLatch (by omega)]
      simp only [Bool.false_eq_true, or_false]
      omega
    have hnext : m.irqLatch - BitVec.ofNat 8 j - 1 = m.irqLatch - BitVec.ofNat 8 (j + 1) := by
      rw [sub_sub, BitVec.ofNat_add]
      rfl
    rw [Function.iterate_succ_apply', ih (by omega), onScanline_mmc3 rfl]
    simp only [if_neg hne, hnext, counter_eq_zero_iff m.irqLatch hj, hon, Bool.and_true,
      decide_eq_false (show ¬ j = m.irqLatch.toNat by omega), Bool.or_false]

end Irq

/-- Settles O55: one call's equation, and its iteration from a pending reload and while disabled. -/
theorem scanlineIrqCount : Obligations.ScanlineIrqCount := by
  intro s m k hm
  refine ⟨onScanline_mmc3 hm, fun hstart hon => ⟨fun hk => ?_, ?_⟩, fun hoff => (irqPending_iterate_disabled hm hoff k).1⟩
  · cases k with
    | zero => rfl
    | succ j =>
      rw [onScanline_iterate hm hstart hon j (by omega)]
      show (s.cpu.irqPending || decide (j = m.irqLatch.toNat)) = s.cpu.irqPending
      rw [decide_eq_false (by omega), Bool.or_false]
  · rw [onScanline_iterate hm hstart hon _ le_rfl]
    show (s.cpu.irqPending || decide (m.irqLatch.toNat = m.irqLatch.toNat)) = true
    rw [decide_eq_true rfl, Bool.or_true]

section Image

variable {img : List Byte}

theorem formatBits_eq_zero_iff (b : Byte) : b.extractLsb' 2 2 = 0 ↔ b &&& 0x0C = 0 := by
  rw [← BitVec.toNat_inj, toNat_field]
  have happ : b &&& 0x0C = 0#4 ++ b.extractLsb' 2 2 ++ 0#2 := by
    refine BitVec.eq_of_getLsbD_eq fun i hi => ?_
    simp only [BitVec.getLsbD_append]
    interval_cases i <;> simp
  rw [← BitVec.toNat_inj (x := b &&& 0x0C), happ]
  have h2 : BitVec.toNat (0 : BitVec 2) = 0 := rfl
  have h8 : BitVec.toNat (0 : Byte) = 0 := rfl
  simp only [toNat_append_add, toNat_field, BitVec.toNat_ofNat, h2, h8]
  norm_num

/-- The mapper number's two nibbles (R601). -/
theorem imageMapperNumber_eq (img : List Byte) :
    imageMapperNumber img = (imageByte img 7 &&& 0xF0) ||| (imageByte img 6 >>> 4) := by
  unfold imageMapperNumber
  refine BitVec.eq_of_getLsbD_eq fun i hi => ?_
  simp only [BitVec.getLsbD_append]
  interval_cases i <;> simp

theorem imageWellFormed_iff : imageWellFormed img = true ↔
    img.take 4 = [0x4E, 0x45, 0x53, 0x1A] ∧ imageByte img 7 &&& 0x0C = 0 ∧ imageByte img 4 ≠ 0 ∧
      imageDeclaredSize img ≤ img.length := by
  simp only [imageWellFormed, imageMagicOk, imageFormatOk, imagePagesOk, imageSizeOk, Bool.and_eq_true, beq_iff_eq,
    bne_iff_ne, decide_eq_true_eq, formatBits_eq_zero_iff]
  tauto

theorem mapperSupported_iff (n : Byte) : mapperSupported n = true ↔ n = 0 ∨ n = 1 ∨ n = 4 := by
  simp only [mapperSupported, Bool.or_eq_true, beq_iff_eq, or_assoc]

/-- A slice of the image as cells: the image's bytes at their places. -/
theorem memRead_slice {r : Region} {start count i : Nat} (hi : i < count)
    (hlen : start + count ≤ img.length) :
    memRead r (cellsFrom r 0 ((img.drop start).take count)) i = imageByte img (start + i) := by
  rw [memRead_cellsFrom, if_pos (Nat.zero_le i), Nat.sub_zero, List.getElem?_take_of_lt hi, List.getElem?_drop, imageByte,
    List.getD_eq_getElem?_getD, List.getElem?_eq_getElem (by omega)]
  rfl

end Image

/-- Settles O56: the three outcomes of the load, and the image's bytes through the cells made of its slices. -/
theorem imageLoads : Obligations.ImageLoads := by
  intro img body prg chr n wellFormed
  have hwf : imageWellFormed img = true ↔ wellFormed := imageWellFormed_iff
  have hn : imageMapperNumber img = n := imageMapperNumber_eq img
  refine ⟨fun h => ?_, fun h h0 h1 h4 => ?_, fun h hsup => ?_⟩
  · rw [loadImage, Bool.eq_false_iff.mpr (fun k => h (hwf.mp k))]
    rfl
  · have hoff : mapperSupported n = false := Bool.eq_false_iff.mpr fun k => by
      rw [mapperSupported_iff] at k
      tauto
    rw [loadImage, hwf.mpr h, hn, hoff]
    rfl
  · rw [loadImage, hwf.mpr h, hn, (mapperSupported_iff n).mpr hsup]
    obtain ⟨-, -, -, hsize⟩ := h
    have hbody : body = 16 + (if imageHasTrainer img then 512 else 0) := rfl
    have htrainer : ((img.drop 16).take (if imageHasTrainer img then 512 else 0)).length =
        if imageHasTrainer img then 512 else 0 := by
      rw [List.length_take, List.length_drop, Nat.min_eq_left (by omega)]
    refine ⟨_, rfl, rfl, rfl, rfl, rfl, rfl, rfl, rfl, htrainer, fun i hi => ?_, rfl, fun i hi => ?_, fun i hi => ?_⟩
    · have hi' : i < if imageHasTrainer img then 512 else 0 := htrainer ▸ hi
      show ((img.drop 16).take _).getD i 0 = _
      rw [imageByte, List.getD_eq_getElem?_getD, List.getElem?_take_of_lt hi', List.getElem?_drop,
        List.getD_eq_getElem?_getD]
    · show memRead .prgRom (cellsFrom .prgRom 0 (((img.drop 16).drop _).take prg)) i = _
      rw [List.drop_drop, memRead_slice hi (by omega), hbody]
    · show memRead .chrRom (cellsFrom .chrRom 0 (((img.drop 16).drop _).take chr)) i = _
      rw [List.drop_drop, ← Nat.add_assoc, memRead_slice hi (by omega), hbody]

end Sys2Proof.Machine
end

section
/-! Proof of the statement of the PPU bus (61_ppu.md R540 to R542). -/

namespace Sys2Proof.Machine

open Sys2Proof.Claims

section Select

variable {s : State} {a : PpuAddr} {d : Byte}

theorem ppuSelect_pattern (h : a.toNat < 0x2000) :
    ppuSelect s a = (chrRegion s.launch.cart, chrIndex s.launch.cart s.mapper.regs a.toNat) := if_pos h

theorem ppuSelect_nametable (h : 0x2000 ≤ a.toNat) (h' : a.toNat < 0x3F00) :
    ppuSelect s a = (.vram, nametableIndex (mirroring s.launch.cart s.mapper.regs) a.toNat) :=
  (if_neg (Nat.not_lt.mpr h)).trans (if_pos h')

theorem ppuSelect_palette (h : 0x3F00 ≤ a.toNat) : ppuSelect s a = (.palette, paletteIndex a.toNat) :=
  (if_neg (by omega)).trans (if_neg (Nat.not_lt.mpr h))

theorem ppuRead_of_select {r : Region} {i : Nat} (h : ppuSelect s a = (r, i)) :
    ppuRead s a = if r = .palette then s.cell r i &&& 0x3F else s.cell r i := by
  unfold ppuRead
  rw [h]
  cases r <;> rfl

/-- What a PPU bus write does to every byte: CHR ROM takes nothing, the palette the low 6 bits (R542, 62 R613). -/
theorem ppuWrite_cell {r : Region} {i : Nat} (h : ppuSelect s a = (r, i)) (q : Region) (j : Nat) :
    (ppuWrite s a d).cell q j =
      if q = r ∧ j = i ∧ r ≠ .chrRom then (if r = .palette then d &&& 0x3F else d) else s.cell q j := by
  have hset : ∀ b : Byte, (s.setCell r i b).cell q j = if q = r ∧ j = i then b else s.cell q j := fun b => by
    rw [State.cell_setCell]
    exact if_congr (and_congr eq_comm eq_comm) rfl rfl
  unfold ppuWrite
  rw [h]
  cases r with
  | chrRom => simp
  | palette => simpa using hset (d &&& 0x3F)
  | _ => simpa using hset d

/-- A PPU bus write keeps what the decoder goes by. -/
theorem ppuSelect_ppuWrite (c : PpuAddr) : ppuSelect (ppuWrite s a d) c = ppuSelect s c := by
  rcases ppuWrite_cases s a d with e | ⟨r, i, b, -, hr, e⟩
  · rw [e]
  · have hp : r ≠ .prgRom := by rintro rfl; simp at hr
    have hc : r ≠ .chrRom := by rintro rfl; simp at hr
    unfold ppuSelect
    rw [e, State.setCell_launch _ _ _ _ hp hc, State.setCell_regs]

/-- A read after a write of the same memory: the written byte at its own place, the old one elsewhere. -/
theorem ppuRead_ppuWrite {c : PpuAddr} {r : Region} {i j : Nat} (ha : ppuSelect s a = (r, i)) (hc : ppuSelect s c = (r, j))
    (hr : r ≠ .chrRom) : ppuRead (ppuWrite s a d) c =
      if i = j then (if r = .palette then d &&& 0x3F else d) else ppuRead s c := by
  have hcell : (ppuWrite s a d).cell r j = if i = j then (if r = .palette then d &&& 0x3F else d) else s.cell r j :=
    (ppuWrite_cell ha r j).trans (if_congr ⟨fun h => h.2.1.symm, fun h => ⟨rfl, h.symm, hr⟩⟩ rfl rfl)
  rw [ppuRead_of_select ((ppuSelect_ppuWrite c).trans hc), ppuRead_of_select hc, hcell]
  by_cases hij : i = j
  · simp only [if_pos hij]
    split
    · rw [BitVec.and_assoc, BitVec.and_self]
    · rfl
  · simp only [if_neg hij]

/-- A pattern address reads CHR ROM or CHR-RAM, and a write reaches CHR-RAM alone (62 R613). -/
theorem ppuBus_pattern (h : a.toNat < 0x2000) {n : Nat} (hn : chrIndex s.launch.cart s.mapper.regs a.toNat = n) :
    ppuRead s a = s.cell (chrRegion s.launch.cart) n ∧
    ∀ q i, (ppuWrite s a d).cell q i =
      if q = .chrRam ∧ s.launch.cart.chrPages = 0 ∧ i = n then d else s.cell q i := by
  have hsel := ppuSelect_pattern (s := s) h
  rw [hn] at hsel
  rw [ppuRead_of_select hsel]
  unfold chrRegion at hsel ⊢
  by_cases hp : s.launch.cart.chrPages = 0
  · rw [if_pos hp] at hsel ⊢
    refine ⟨rfl, fun q i => ?_⟩
    rw [ppuWrite_cell hsel]
    simp [hp]
  · rw [if_neg hp] at hsel ⊢
    refine ⟨rfl, fun q i => ?_⟩
    rw [ppuWrite_cell hsel]
    simp [hp]

/-- The palette's entries, $10, $14, $18 and $1C being $00, $04, $08 and $0C (R542). -/
theorem paletteIndex_eq (n : Nat) : paletteIndex n = if n % 4 = 0 then n % 16 else n % 32 := by
  unfold paletteIndex
  dsimp only
  split <;> split <;> omega

end Select

section Windows

/-- The 4 KiB bank of a pattern address under the shift-register variant (R632, R635). -/
theorem Mmc1.chrBank_eq (m : Mmc1) {n : Nat} (h : n < 0x2000) : m.chrBank (0x1000 ≤ n) =
    if m.control.getLsbD 4 then (if n / 0x400 < 4 then m.chr0.toNat else m.chr1.toNat)
    else m.chr0.toNat / 2 * 2 + n / 0x400 / 4 := by
  have hk : n / 0x400 < 4 ↔ n < 0x1000 := by omega
  unfold Mmc1.chrBank bit
  by_cases hn : n < 0x1000
  · rw [decide_eq_false (by omega), if_pos (hk.mpr hn), show n / 0x400 / 4 = 0 by omega]
    rfl
  · rw [decide_eq_true (by omega), if_neg (fun k => hn (hk.mp k)), show n / 0x400 / 4 = 1 by omega]
    rfl

/-- The eight 1 KiB windows of the scanline-IRQ variant (R646). -/
theorem Mmc3.chrBank_eq (m : Mmc3) {k : Nat} (h : k < 8) : m.chrBank k =
    ([m.r0 &&& 0xFE, m.r0 ||| 1, m.r1 &&& 0xFE, m.r1 ||| 1, m.r2, m.r3, m.r4, m.r5].getD
      (if m.bankSelect.getLsbD 7 then (k + 4) % 8 else k) 0).toNat := by
  unfold Mmc3.chrBank bit
  dsimp only
  cases m.bankSelect.getLsbD 7 <;> interval_cases k <;> rfl

/-- The place of a pattern address, by the variant's window, its bank modulo the count (R605). -/
theorem chrIndex_eq (c : Cartridge) (m : MapperRegs) {n : Nat} (h : n < 0x2000) : chrIndex c m n =
    match m with
    | .nrom => n
    | .mmc1 m =>
      (if m.control.getLsbD 4 then (if n / 0x400 < 4 then m.chr0.toNat else m.chr1.toNat)
        else m.chr0.toNat / 2 * 2 + n / 0x400 / 4) % (2 * max 1 c.chrPages) * 0x1000 + n % 0x1000
    | .mmc3 m =>
      ([m.r0 &&& 0xFE, m.r0 ||| 1, m.r1 &&& 0xFE, m.r1 ||| 1, m.r2, m.r3, m.r4, m.r5].getD
        (if m.bankSelect.getLsbD 7 then (n / 0x400 + 4) % 8 else n / 0x400) 0).toNat % (8 * max 1 c.chrPages) * 0x400 +
        n % 0x400 := by
  cases m with
  | nrom => exact Nat.mod_eq_of_lt h
  | mmc1 m =>
    show bankStart 0x1000 (2 * chrUnits c) (m.chrBank (0x1000 ≤ n)) + n % 0x1000 = _
    rw [Mmc1.chrBank_eq m h]
    rfl
  | mmc3 m =>
    show bankStart 0x400 (8 * chrUnits c) (m.chrBank (n / 0x400)) + n % 0x400 = _
    rw [Mmc3.chrBank_eq m (by omega)]
    rfl

/-- The nametable mode, by the header or the variant's control (R603, R632, R647). -/
theorem mirroring_mmc1 (c : Cartridge) (m : Mmc1) : mirroring c (.mmc1 m) =
    if c.fourScreen then .fourScreen
    else if m.control.toNat % 4 = 0 then .oneScreenLower
    else if m.control.toNat % 4 = 1 then .oneScreenUpper
    else if m.control.toNat % 4 = 2 then .vertical
    else .horizontal := by
  have hmode : (m.control.extractLsb' 0 2).toNat = m.control.toNat % 4 := by rw [toNat_field]; norm_num
  have hlt : m.control.toNat % 4 < 4 := Nat.mod_lt _ (by decide)
  unfold mirroring
  dsimp only
  rw [hmode]
  generalize m.control.toNat % 4 = k at hlt
  interval_cases k <;> rfl

end Windows

/-- Settles O51: each kind of address by the decoder's selection, and a read and a write of what it selects. -/
theorem ppuBusReadsBack : Obligations.PpuBusReadsBack := by
  intro a c d s
  dsimp only
  refine ⟨fun h => ?_, ?_, fun h => ?_, fun h h' => ?_⟩
  · exact ppuBus_pattern h (chrIndex_eq _ _ h)
  · cases hm : s.mapper.regs with
    | nrom =>
      cases hf : s.launch.cart.fourScreen <;> simp [mirroring, headerMirroring, hf]
    | mmc1 m => exact mirroring_mmc1 s.launch.cart m
    | mmc3 m => rfl
  · have hsel := ppuSelect_palette (s := s) h
    rw [paletteIndex_eq] at hsel
    refine ⟨ppuRead_of_select hsel, fun q i => ?_, fun hc => ?_⟩
    · rw [ppuWrite_cell hsel]
      simp
    · have hselc := ppuSelect_palette (s := s) hc
      rw [paletteIndex_eq] at hselc
      exact ppuRead_ppuWrite hsel hselc (by decide)
  · have hsel := ppuSelect_nametable (s := s) h h'
    refine ⟨ppuRead_of_select hsel, fun q i => ?_, fun hc hc' => ?_⟩
    · rw [ppuWrite_cell hsel]
      refine if_congr ?_ rfl rfl
      simp only [ne_eq, reduceCtorEq, not_false_eq_true, and_true]
      rfl
    · exact ppuRead_ppuWrite hsel (ppuSelect_nametable hc hc') (by decide)

end Sys2Proof.Machine
end

section
/-! Proofs of the statements of the write map (20_memory.md section 2) and of the PPU's ports (61_ppu.md R520 to R533). -/

namespace Sys2Proof.Machine

open Sys2Proof.Claims

section Map

variable {s : State} {a : Word}

theorem busSelect_ram (h : a.toNat < 0x2000) : busSelect s a = .window ramWindow := by
  rw [busSelect, if_neg (by omega), if_neg (by omega), if_pos h]

theorem busSelect_prgRam (h : 0x6000 ≤ a.toNat) (h' : a.toNat < 0x8000) : busSelect s a =
    match prgRamWindow s.launch.cart s.mapper.regs with
    | some w => .window w
    | none => .openBus :=
  (if_neg (by omega)).trans (if_pos h)

theorem busSelect_expansion (h : 0x4000 ≤ a.toNat) (h' : a.toNat < 0x6000) : busSelect s a = .openBus := by
  rw [busSelect, if_neg (by omega), if_neg (by omega), if_neg (by omega), if_neg (by omega)]

theorem storedCell_of_window {w : Window} (ha : a.toNat < 0x8000) (h : busSelect s a = .window w) :
    storedCell s a = if w.writable then some (w.region, w.cellIndex a.toNat) else none := by
  rw [storedCell, if_neg (Nat.not_le.mpr ha), h]

theorem storedCell_of_openBus (ha : a.toNat < 0x8000) (h : busSelect s a = .openBus) : storedCell s a = none := by
  rw [storedCell, if_neg (Nat.not_le.mpr ha), h]

theorem storedCell_of_port {p : Nat} (h : busSelect s a = .port p) : storedCell s a =
    if p = 4 then some (.oam, s.ppu.oamAddr.toNat)
    else if p = 7 then (if (ppuSelect s s.ppu.busAddr).1 = .chrRom then none else some (ppuSelect s s.ppu.busAddr))
    else none := by
  have ha := toNat_lt_of_isPort a (isPort_of_busSelect s a h)
  rw [storedCell, if_neg (Nat.not_le.mpr ha), h]
  by_cases h4 : p = 4
  · subst h4
    rfl
  · by_cases h7 : p = 7
    · subst h7
      rw [if_neg h4, if_pos rfl]
      rcases ppuSelect s s.ppu.busAddr with ⟨r, i⟩
      cases r <;> rfl
    · rw [if_neg h4, if_neg h7]
      split <;> simp_all

/-- PRG-RAM is there and enabled (R612, R634, R651). -/
def prgRamEnabled (c : Cartridge) : MapperRegs → Bool
  | .nrom => c.hasPrgRam
  | .mmc1 m => !m.prg.getLsbD 4
  | .mmc3 m => m.prgRamProtect.getLsbD 7

/-- PRG-RAM takes writes (R651). -/
def prgRamWritable : MapperRegs → Bool
  | .mmc3 m => !m.prgRamProtect.getLsbD 6
  | .nrom => true
  | .mmc1 _ => true

theorem prgRamWindow_eq (c : Cartridge) (m : MapperRegs) : prgRamWindow c m =
    if prgRamEnabled c m then some ⟨.prgRam, 0, 0x6000, prgRamWritable m, 0⟩ else none := by
  cases m with
  | mmc1 m =>
    rcases Bool.eq_false_or_eq_true (m.prg.getLsbD 4) with hp | hp <;>
      simp only [prgRamWindow, prgRamEnabled, prgRamWritable, bit, hp] <;> rfl
  | _ => rfl

/-- What $6000 to $7FFF selects. -/
theorem prgRam_cases (h : 0x6000 ≤ a.toNat) (h' : a.toNat < 0x8000) :
    storedCell s a = (if prgRamEnabled s.launch.cart s.mapper.regs && prgRamWritable s.mapper.regs
      then some (.prgRam, a.toNat - 0x6000) else none) ∧
    (busRead a s).1 = if prgRamEnabled s.launch.cart s.mapper.regs then s.cell .prgRam (a.toNat - 0x6000) else s.busLatch := by
  have hsel := busSelect_prgRam (s := s) h h'
  rw [prgRamWindow_eq] at hsel
  cases hen : prgRamEnabled s.launch.cart s.mapper.regs with
  | true =>
    rw [hen] at hsel
    replace hsel : busSelect s a = .window ⟨.prgRam, 0, 0x6000, prgRamWritable s.mapper.regs, 0⟩ := hsel
    have hcell : (Window.mk .prgRam 0 0x6000 (prgRamWritable s.mapper.regs) 0).cellIndex a.toNat = a.toNat - 0x6000 := by
      simp [Window.cellIndex, Window.index]
    constructor
    · rw [storedCell_of_window h' hsel, hcell, Bool.true_and]
    · rw [busRead, hsel]
      dsimp only
      rw [hcell, if_pos rfl]
  | false =>
    rw [hen] at hsel
    exact ⟨storedCell_of_openBus h' hsel, by rw [busRead, hsel]; rfl⟩

end Map

/-- Settles O39: the address's region by the decoder, and the byte that the write reaches. -/
theorem storeMap : Obligations.StoreMap := by
  intro a s
  refine ⟨fun h => ?_, fun h h' => ?_, fun h h' => ?_, fun h h' => ?_, fun h => if_pos h, fun v => stored_busWrite s a v,
    fun h h' => ?_⟩
  · rw [storedCell_of_window (by omega) (busSelect_ram h)]
    show some (Region.ram, 0 + (a.toNat - 0) % 0x800) = _
    rw [Nat.zero_add, Nat.sub_zero]
  · have hport : isPort a = true := by
      simp only [isPort, Bool.and_eq_true, decide_eq_true_eq]
      exact ⟨h, h'⟩
    rw [storedCell_of_port (busSelect_of_isPort s hport)]
    refine ⟨fun h4 => if_pos h4, fun h7 => ?_, fun h4 h7 => ?_⟩
    · rw [if_neg (by omega), if_pos h7]
    · rw [if_neg h4, if_neg h7]
  · exact storedCell_of_openBus (by omega) (busSelect_expansion h h')
  · rw [(prgRam_cases h h').1]
    cases s.mapper.regs with
    | nrom => rw [prgRamWritable, Bool.and_true]; rfl
    | mmc1 m =>
      rcases Bool.eq_false_or_eq_true (m.prg.getLsbD 4) with hp | hp <;>
        simp only [prgRamEnabled, prgRamWritable, hp] <;> rfl
    | mmc3 m => rfl
  · rw [(prgRam_cases h h').2]
    cases s.mapper.regs <;> rfl

section Ports

variable {s : State} {a : Word} {d : Byte}

theorem busSelect_port {n : Nat} (h : 0x2000 ≤ a.toNat) (h' : a.toNat < 0x4000) (hn : a.toNat % 8 = n) :
    busSelect s a = .port n := by
  rw [busSelect_of_isPort s (by simp only [isPort, Bool.and_eq_true, decide_eq_true_eq]; exact ⟨h, h'⟩), hn]

theorem busRead_of_port {n : Nat} (h : busSelect s a = .port n) :
    busRead a s = ((portRead n s).1, (portRead n s).2.setBusLatch (portRead n s).1) := by
  rw [busRead, h]

/-- An OAM address write (R525). -/
theorem busWrite_2003 (s : State) (a : Byte) : (busWrite 0x2003 a s).ppu.oamAddr = a ∧
    ∀ q i, (busWrite 0x2003 a s).cell q i = s.cell q i := by
  have e : busWrite 0x2003 a s = { s with busLatch := a, ppu := { s.ppu with ioLatch := a, oamAddr := a } } :=
    busWrite_of_port s _ _ (busSelect_port (n := 3) (by decide) (by decide) (by decide))
  rw [e]
  exact ⟨rfl, fun q i => State.cell_congr _ _ rfl rfl rfl rfl rfl rfl rfl q i⟩

/-- An OAM write: the byte at the OAM address, and the address one on (R526). -/
theorem busWrite_2004 (s : State) (d : Byte) : (busWrite 0x2004 d s).ppu.oamAddr = s.ppu.oamAddr + 1 ∧
    ∀ q i, (busWrite 0x2004 d s).cell q i = if q = .oam ∧ i = s.ppu.oamAddr.toNat then d else s.cell q i := by
  have e : busWrite 0x2004 d s = writeOamPort d ((s.setBusLatch d).setPpu { s.ppu with ioLatch := d }) :=
    busWrite_of_port s _ _ (busSelect_port (n := 4) (by decide) (by decide) (by decide))
  rw [e]
  refine ⟨rfl, fun q i => ?_⟩
  have hcell := State.cell_setCell ((s.setBusLatch d).setPpu { s.ppu with ioLatch := d }) .oam q s.ppu.oamAddr.toNat i d
  refine (State.cell_congr _ _ rfl rfl rfl rfl rfl rfl rfl q i).trans (hcell.trans ?_)
  refine if_congr (and_congr eq_comm eq_comm) rfl ?_
  exact State.cell_congr _ _ rfl rfl rfl rfl rfl rfl rfl q i

theorem busRead_2004 (s : State) : (busRead 0x2004 s).1 = s.cell .oam s.ppu.oamAddr.toNat ∧
    (busRead 0x2004 s).2.ppu.oamAddr = s.ppu.oamAddr := by
  rw [busRead_of_port (busSelect_port (n := 4) (by decide) (by decide) (by decide))]
  exact ⟨rfl, rfl⟩

end Ports

/-- Settles O49: each access is its port's, and OAM is written through its address. -/
theorem oamRoundTrip : Obligations.OamRoundTrip := by
  intro a d s t r
  obtain ⟨haddr, hcell⟩ := busWrite_2003 s a
  obtain ⟨htaddr, htcell⟩ := busWrite_2004 (busWrite 0x2003 a s) d
  obtain ⟨huaddr, hucell⟩ := busWrite_2003 t a
  obtain ⟨hread, hkeep⟩ := busRead_2004 (busWrite 0x2003 a t)
  have hfinal : ∀ q i, (busWrite 0x2003 a t).cell q i = if q = .oam ∧ i = a.toNat then d else s.cell q i := fun q i => by
    rw [hucell, htcell, haddr, hcell]
  refine ⟨by rw [htaddr, haddr], ?_, hkeep.trans huaddr, fun q i h => ?_⟩
  · rw [hread, huaddr, hfinal, if_pos ⟨rfl, rfl⟩]
  · rw [busRead_cell, hfinal, if_neg h]

section Registers

/-! The bits that each port sets, as concatenated fields. -/

variable (t : VramAddr) (d : Byte)

theorem setBits_nametable : setBits 0x0C00#15 t (d.setWidth 15 <<< 10) =
    t.extractLsb' 12 3 ++ d.extractLsb' 0 2 ++ t.extractLsb' 0 10 := by
  unfold setBits
  refine BitVec.eq_of_getLsbD_eq fun i hi => ?_
  simp only [BitVec.getLsbD_append]
  interval_cases i <;> simp

theorem setBits_coarseX : setBits 0x001F#15 t ((d >>> 3).setWidth 15) = t.extractLsb' 5 10 ++ d.extractLsb' 3 5 := by
  unfold setBits
  refine BitVec.eq_of_getLsbD_eq fun i hi => ?_
  simp only [BitVec.getLsbD_append]
  interval_cases i <;> simp

theorem setBits_scrollY :
    setBits 0x03E0#15 (setBits 0x7000#15 t (d.setWidth 15 <<< 12)) ((d >>> 3).setWidth 15 <<< 5) =
      d.extractLsb' 0 3 ++ t.extractLsb' 10 2 ++ d.extractLsb' 3 5 ++ t.extractLsb' 0 5 := by
  unfold setBits
  refine BitVec.eq_of_getLsbD_eq fun i hi => ?_
  simp only [BitVec.getLsbD_append]
  interval_cases i <;> simp

theorem setBits_addrHigh : setBits 0x7F00#15 t ((d &&& 0x3F).setWidth 15 <<< 8) =
    0#1 ++ d.extractLsb' 0 6 ++ t.extractLsb' 0 8 := by
  unfold setBits
  refine BitVec.eq_of_getLsbD_eq fun i hi => ?_
  simp only [BitVec.getLsbD_append]
  interval_cases i <;> simp

theorem setBits_addrLow : setBits 0x00FF#15 t (d.setWidth 15) = t.extractLsb' 8 7 ++ d := by
  unfold setBits
  refine BitVec.eq_of_getLsbD_eq fun i hi => ?_
  simp only [BitVec.getLsbD_append]
  interval_cases i <;> simp

theorem setWidth_fineX : d.setWidth 3 = d.extractLsb' 0 3 := by
  ext i hi
  simp [BitVec.getElem_setWidth, BitVec.getElem_extractLsb']

/-- The status byte of port 2 (R503). -/
theorem ppuStatus_bits (p : Ppu) : p.status.getLsbD 7 = p.vblank ∧ p.status.getLsbD 6 = p.sprite0Hit ∧
    p.status.getLsbD 5 = p.spriteOverflow ∧ p.status &&& 0x1F = p.ioLatch &&& 0x1F := by
  have hbit : ∀ k, p.status.getLsbD k = ((p.vblank && decide (k = 7)) || (p.sprite0Hit && decide (k = 6)) ||
      (p.spriteOverflow && decide (k = 5)) || (p.ioLatch &&& 0x1F).getLsbD k) := fun k => by
    rw [Ppu.status, BitVec.getLsbD_or, BitVec.getLsbD_or, BitVec.getLsbD_or, flagAt_getLsbD _ (by decide),
      flagAt_getLsbD _ (by decide), flagAt_getLsbD _ (by decide)]
  refine ⟨by rw [hbit]; simp, by rw [hbit]; simp, by rw [hbit]; simp, ?_⟩
  refine BitVec.eq_of_getLsbD_eq fun i hi => ?_
  rw [BitVec.getLsbD_and, hbit]
  interval_cases i <;> simp

end Registers

section PortStates

variable (s : State) (d : Byte)

/-- The data port's write: the PPU bus's, and `v` moves on (R531). -/
theorem portWrite_data : portWrite 7 d (s.setBusLatch d) =
    { s with
      busLatch := d
      ppu := { s.ppu with
        ioLatch := d
        vram := (portWrite 7 d (s.setBusLatch d)).ppu.vram
        palette := (portWrite 7 d (s.setBusLatch d)).ppu.palette
        v := s.ppu.vIncremented }
      mapper := { s.mapper with chrRam := (portWrite 7 d (s.setBusLatch d)).mapper.chrRam } } := by
  have e : portWrite 7 d (s.setBusLatch d) = writeDataPort d ((s.setBusLatch d).setPpu { s.ppu with ioLatch := d }) := rfl
  rw [e, writeDataPort]
  rcases ppuWrite_cases ((s.setBusLatch d).setPpu { s.ppu with ioLatch := d }) s.ppu.busAddr d with
    hw | ⟨r, i, b, -, rfl | rfl | ⟨rfl, -⟩, hw⟩
  all_goals
    have hw' : ppuWrite ((s.setBusLatch d).setPpu { s.ppu with ioLatch := d })
      ((s.setBusLatch d).setPpu { s.ppu with ioLatch := d }).ppu.busAddr d = _ := hw
    rw [hw']
    rfl

end PortStates

/-- Settles O50: every port by its own read and write. -/
theorem portSideEffects : Obligations.PortSideEffects := by
  intro a s h h' r p va vNext
  have hread : ∀ {n : Nat}, a.toNat % 8 = n → r = ((portRead n s).1, (portRead n s).2.setBusLatch (portRead n s).1) :=
    fun hn => busRead_of_port (busSelect_port h h' hn)
  refine ⟨fun hn => ?_, fun hn => ?_, fun hn => ?_, fun hn => ?_, fun d => ?_⟩
  · obtain ⟨h7, h6, h5, hlow⟩ := ppuStatus_bits p
    rw [hread hn]
    exact ⟨h7, h6, h5, hlow, rfl⟩
  · rw [hread hn]
    exact ⟨rfl, rfl⟩
  · rw [hread hn]
    refine ⟨fun hva => ⟨if_pos hva, if_pos hva⟩, fun hva => ?_, rfl⟩
    exact ⟨if_neg (Nat.not_lt.mpr hva), if_neg (Nat.not_lt.mpr hva)⟩
  · simp only [List.mem_cons, List.not_mem_nil, or_false] at hn
    rcases hn with hn | hn | hn | hn | hn <;> (rw [hread hn]; rfl)
  · intro t wrote
    have hwrite : ∀ {n : Nat}, a.toNat % 8 = n → t = portWrite n d (s.setBusLatch d) :=
      fun hn => busWrite_of_port s a d (busSelect_port h h' hn)
    refine ⟨fun hn => ?_, fun hn => ?_, fun hn => ?_, fun hn => ?_, fun hn => ?_, fun hn hw => ?_, fun hn hw => ?_,
      fun hn hw => ?_, fun hn hw => ?_, fun hn => ?_⟩
    · rw [hwrite hn, ← setBits_nametable]
      rfl
    · exact hwrite hn
    · exact hwrite hn
    · exact hwrite hn
    · rw [hwrite hn]
      rfl
    · have e : portWrite 5 d (s.setBusLatch d) = writeScrollPort d ((s.setBusLatch d).setPpu { p with ioLatch := d }) := rfl
      rw [hwrite hn, e, writeScrollPort, ← setBits_coarseX, ← setWidth_fineX]
      exact if_pos (by rw [State.setPpu_ppu]; simp [hw])
    · have e : portWrite 5 d (s.setBusLatch d) = writeScrollPort d ((s.setBusLatch d).setPpu { p with ioLatch := d }) := rfl
      rw [hwrite hn, e, writeScrollPort, ← setBits_scrollY]
      exact if_neg (by rw [State.setPpu_ppu]; simp [hw])
    · have e : portWrite 6 d (s.setBusLatch d) = writeAddrPort d ((s.setBusLatch d).setPpu { p with ioLatch := d }) := rfl
      rw [hwrite hn, e, writeAddrPort, ← setBits_addrHigh]
      exact if_pos (by rw [State.setPpu_ppu]; simp [hw])
    · have e : portWrite 6 d (s.setBusLatch d) = writeAddrPort d ((s.setBusLatch d).setPpu { p with ioLatch := d }) := rfl
      rw [hwrite hn, e, writeAddrPort, ← setBits_addrLow]
      exact if_neg (by rw [State.setPpu_ppu]; simp [hw])
    · rw [hwrite hn]
      exact portWrite_data s d

end Sys2Proof.Machine
end
